-- ==== Sys2Proof/Word.lean ====
section
/-! DEFINITION. The bit-vector types of the part: what the manual treats as bits or lets wrap. -/

namespace Sys2Proof

/-- One character of the link, one byte of a frame or of the configuration memory. -/
abbrev Byte := BitVec 8

/-- A value of the 32-bit tick counter (R48). -/
abbrev Tick := BitVec 32

/-- A packet sequence number (R21). -/
abbrev PacketSeq := BitVec 16

end Sys2Proof
end

