-- ==== Sys2Proof/Syntax.lean ====
section
/-! DEFINITION. The commands of the part: one constructor of Instr for each row of spec/opcode_table.json. -/

namespace Sys2Proof

/-- The eight path sensors (spec/00 section 4.2). -/
inductive Sensor where
  | s0 | s1 | s2 | s3p | s3 | s4 | s5a | s5b
  deriving DecidableEq, Repr

/-- The two compilers (spec/00 section 4). -/
inductive CompilerId where
  | a | b
  deriving DecidableEq, Repr

/-- The two covers the Path Tracker takes (R69). -/
inductive Cover where
  | front | top
  deriving DecidableEq, Repr

/-- The causes of a discard by the receiver that a byte brings about (R160); the fourth, GAP, is INTER_BYTE_TIMEOUT. -/
inductive DiscardCause where
  | length | crc | badStop
  deriving DecidableEq, Repr

/-- The commands. A request row is one complete frame of its kind: `seq` is its sequence byte, `payload` its payload
bytes (11.3). The rows of one kind (Bin Service, Compiler Service, Restart) are told apart by the payload's action or
restart byte (WellFormed). `i` is a record's place in the path table, 0 the oldest. -/
inductive Instr where
  /-- RESET_RELEASE (R169) -/
  | resetRelease
  /-- PROFILE_LOAD_END (R176) -/
  | profileLoadEnd
  /-- OPEN_RUN (R2) -/
  | openRun (seq : Byte) (payload : List Byte)
  /-- ABORT_RUN (R4) -/
  | abortRun (seq : Byte) (payload : List Byte)
  /-- ABORT_SET (R14) -/
  | abortSet (seq : Byte) (payload : List Byte)
  /-- ANNOUNCE (R28) -/
  | announce (seq : Byte) (payload : List Byte)
  /-- WITHDRAW (R39) -/
  | withdraw (seq : Byte) (payload : List Byte)
  /-- RESUME (R153) -/
  | resume (seq : Byte) (payload : List Byte)
  /-- RECOVERY_QUERY (R152) -/
  | recoveryQuery (seq : Byte) (payload : List Byte)
  /-- READ_TABLE (R167) -/
  | readTable (seq : Byte) (payload : List Byte)
  /-- STATUS (R166) -/
  | status (seq : Byte) (payload : List Byte)
  /-- SET_PARAMETER (R171) -/
  | setParameter (seq : Byte) (payload : List Byte)
  /-- GET_PARAMETER (R172) -/
  | getParameter (seq : Byte) (payload : List Byte)
  /-- BIN_SERVICE_OUT (R139) -/
  | binServiceOut (seq : Byte) (payload : List Byte)
  /-- BIN_SERVICE_IN (R139) -/
  | binServiceIn (seq : Byte) (payload : List Byte)
  /-- COMPILER_SERVICE_OUT (R117) -/
  | compilerServiceOut (seq : Byte) (payload : List Byte)
  /-- COMPILER_SERVICE_IN (R118) -/
  | compilerServiceIn (seq : Byte) (payload : List Byte)
  /-- NOTICE_MASK (R164) -/
  | noticeMask (seq : Byte) (payload : List Byte)
  /-- RESTART_FULL (R177) -/
  | restartFull (seq : Byte) (payload : List Byte)
  /-- RESTART_PATH (R178) -/
  | restartPath (seq : Byte) (payload : List Byte)
  /-- UNKNOWN_REQUEST (R161) -/
  | unknownRequest (kind : Byte) (seq : Byte) (payload : List Byte)
  /-- FRAME_DISCARD (R160) -/
  | frameDiscard (cause : DiscardCause)
  /-- INTER_BYTE_TIMEOUT (R160) -/
  | interByteTimeout
  /-- TX_FRAME_END (R165) -/
  | txFrameEnd
  /-- RESTART_FULL_TAKE_EFFECT (R169) -/
  | restartFullTakeEffect
  /-- S0_LEAD (R42) -/
  | s0Lead
  /-- S0_CLEAR (R44) -/
  | s0Clear
  /-- SENSOR_LEAD (R76) -/
  | sensorLead (x : Sensor)
  /-- SENSOR_CLEAR (R78) -/
  | sensorClear (x : Sensor)
  /-- COVER_OPEN (R69) -/
  | coverOpen (c : Cover)
  /-- COVER_CLOSE (R69) -/
  | coverClose (c : Cover)
  /-- SPINUP_END (R65) -/
  | spinupEnd
  /-- IDLE_EXPIRY (R66) -/
  | idleExpiry
  /-- ENTRY_LATE (R36) -/
  | entryLate
  /-- SHEET_MISSING (R37) -/
  | sheetMissing
  /-- GUARD_END (R41) -/
  | guardEnd
  /-- SLIP_STAGE (R53) -/
  | slipStage (i : Nat)
  /-- LATE_JAM_STAGE (R53) -/
  | lateJamStage (i : Nat)
  /-- CLEAR_DEADLINE_EXPIRY (R55) -/
  | clearDeadlineExpiry (i : Nat)
  /-- RELEASE_SPACING_END (R96) -/
  | releaseSpacingEnd
  /-- SETTLE_END (R102) -/
  | settleEnd (x : CompilerId)
  /-- JOG_END (R103) -/
  | jogEnd (x : CompilerId)
  /-- STROKE_REPORT (R104): FORMED or NOT_FORMED -/
  | strokeReport (x : CompilerId) (formed : Bool)
  /-- REPORT_TIMER_EXPIRY (R105) -/
  | reportTimerExpiry (x : CompilerId)
  /-- COMPILER_PAPER_ABSENT (R107) -/
  | compilerPaperAbsent (x : CompilerId)
  /-- TRANSFER_TIMER_EXPIRY (R107) -/
  | transferTimerExpiry (x : CompilerId)
  /-- COMPILER_PAPER_PRESENT (R116) -/
  | compilerPaperPresent (x : CompilerId)
  /-- CARTRIDGE_INSERTED (R110) -/
  | cartridgeInserted (x : CompilerId)
  /-- CARTRIDGE_REMOVED (R110) -/
  | cartridgeRemoved (x : CompilerId)
  /-- POSITION_REACHED (R127) -/
  | positionReached
  /-- DROP_END (R129) -/
  | dropEnd
  /-- MOVE_TIMEOUT (R130) -/
  | moveTimeout
  /-- SHUTTLE_HOME (R131): the home input became active or inactive -/
  | shuttleHome (active : Bool)
  /-- TOWER_OPEN (R132) -/
  | towerOpen
  /-- TOWER_CLOSE (R133) -/
  | towerClose
  /-- BIN_DOOR_OPEN (R136) -/
  | binDoorOpen (b : Fin 24)
  /-- BIN_DOOR_CLOSE (R137) -/
  | binDoorClose (b : Fin 24)
  /-- BIN_PAPER_PRESENT (R138) -/
  | binPaperPresent (b : Fin 24)
  /-- BIN_PAPER_ABSENT (R138) -/
  | binPaperAbsent (b : Fin 24)
  /-- SHELF_EMPTY (R141) -/
  | shelfEmpty
  /-- SHELF_NOT_EMPTY (R141) -/
  | shelfNotEmpty
  /-- BYTE_TAKEN (R160) -/
  | byteTaken (b : Byte)
  deriving DecidableEq, Repr

end Sys2Proof
end

