-- ==== Sys2Proof/Decode.lean ====
section
/-! DEFINITION. The command a word spells by the table's bits. No row of spec/opcode_table.json gives bits, so no word
spells a command. -/

namespace Sys2Proof

/-- The table gives no row any bits ("n_rows_with_fixed": 0, spec/98_reader.md): every word is refused. -/
def decodeTableWord (_nbits _w : Nat) : Option Instr := none

end Sys2Proof
end

