-- ==== Sys2Proof/Config.lean ====
section
/-! DEFINITION. The figures the manual fixes for the part. No figure here is left open by the manual, so there is no
opaque constant: the spec leaves no result undefined (INVENTORY.md, "What the manual leaves open"). -/

namespace Sys2Proof.Config

/-- Places of the announce queue (R25). -/
def queuePlaces : Nat := 8
/-- Records the path table may hold (R74). -/
def pathPlaces : Nat := 12
/-- The overrun count at which a sheet is diverted, and the places of the buffer (R89, R94). -/
def bufferPlaces : Nat := 3
/-- Replies the reply queue may hold (R162). -/
def replyPlaces : Nat := 4
/-- Notices the notice FIFO may hold (R163). -/
def noticePlaces : Nat := 16
/-- Packets a bin's list may hold (R124). -/
def binPackets : Nat := 40
/-- The stack limit and the limit of a set's cumulative thickness, in um (R30, R100). -/
def stackLimit : Nat := 8000
/-- T_gate in ticks, fixed (R49). -/
def tGate : Nat := 300
/-- The fixed part of the report and transfer timers, in ticks (R103, R107). -/
def timerMargin : Nat := 5000
/-- The inter-byte timer, in ticks (R160). -/
def interByte : Nat := 50
/-- The longest profile load, 250 ms, in ticks (R176). -/
def loadLimit : Nat := 2500
/-- The length the part assumes for a stray sheet, in mm (R51). -/
def strayLength : Nat := 432
/-- The bound of R174 on Z1 plus Z2 and on Z4, in mm. -/
def pathBound : Nat := 440
/-- The reply payload (11.2) less the status, reason, table and next index of a Read Table reply (11.5). -/
def tableBytes : Nat := 116
/-- The level of the overflow shelf (R134). -/
def shelfLevel : Nat := 13
/-- Bytes of the configuration memory (10.5). -/
def imageBytes : Nat := 2048
/-- Words of the configuration memory (10.5). -/
def imageWords : Nat := 1024

/-- Defaults of the PATH parameters, ids 1 to 25 (R170). -/
def pathDefaults : List Nat :=
  [180, 280, 300, 260, 450, 150, 250, 800, 800, 800, 800, 600, 500, 500,
   40, 150, 40, 3000, 800, 6, 1200, 20000, 1000, 150, 250]
/-- Defaults of the MEDIA parameters, ids 32 to 39 (R170). -/
def mediaDefaults : List Nat := [100, 110, 130, 160, 200, 250, 300, 100]
/-- Defaults of the COMPILE parameters, ids 48 to 54 (R170). -/
def compileDefaults : List Nat := [80, 120, 250, 400, 5000, 5000, 200]
/-- Defaults of the DELIVERY parameters, ids 64 to 68 and then the 24 bin capacities, ids 72 to 95 (R170). -/
def deliveryDefaults : List Nat := [300, 60, 350, 1000, 60000] ++ List.replicate 24 40000
/-- The seven travels at the defaults (the table of R50). -/
def travelDefaults : List Nat := [2250, 3500, 3750, 3250, 7500, 3000, 5000]
/-- The notice mask with every kind enabled, the default (R164, R170). -/
def maskDefault : BitVec 23 := BitVec.allOnes 23

end Sys2Proof.Config
end

