-- ==== Sys2Proof/Machine/State.lean ====
section
/-! DEFINITION. The state of the part as plain data, its reset value, and the reasons a step can stop. -/

namespace Sys2Proof.Machine

/-- Faults of the model. The manual stops the part nowhere: jams, timeouts and covers are states with rules of their own,
so there is none. -/
inductive Fault where
  deriving DecidableEq, Repr

/-- Refusals of the model. -/
inductive Refusal where
  /-- Raised by an arm of exec whose command has no meaning yet; safe. No arm raises it. -/
  | notModelled (mnemonic : String)
  deriving DecidableEq, Repr

/-- One value for each path sensor (R72, R74). -/
structure PerSensor (α : Type) where
  s0 : α
  s1 : α
  s2 : α
  s3p : α
  s3 : α
  s4 : α
  s5a : α
  s5b : α
  deriving DecidableEq, Repr

/-- The same value for every sensor. -/
def PerSensor.all {α : Type} (v : α) : PerSensor α := ⟨v, v, v, v, v, v, v, v⟩

/-! ## Runs, sets and packets (01) -/

/-- A set's name: its run and its number within the run (spec/00 section 6). -/
structure SetKey where
  run : Fin 16
  set : Nat
  deriving DecidableEq, Repr

inductive Pattern where
  | none | corner | edge2
  deriving DecidableEq, Repr

inductive FillOrder where
  | ascending | descending
  deriving DecidableEq, Repr

inductive Policy where
  | keepPartial | wholeSet
  deriving DecidableEq, Repr

inductive OffsetMode where
  | alternate | none
  deriving DecidableEq, Repr

/-- A packet's offset side; a run's next side is LEFT or RIGHT (1.1, 1.6). -/
inductive Side where
  | none | left | right
  deriving DecidableEq, Repr

inductive RunState where
  | opened | aborted | done
  deriving DecidableEq, Repr

/-- A run record (1.1). The run id is its place in the run table. -/
structure Run where
  label : List Byte
  declared : Nat
  pattern : Pattern
  requireStaple : Bool
  mask : BitVec 24
  order : FillOrder
  policy : Policy
  offset : OffsetMode
  active : Option (Fin 24)
  owned : List (Fin 24)
  delivered : Nat
  aborted : Nat
  /-- bit n - 1 stands for set n -/
  done : BitVec 255
  nextSide : Side
  state : RunState
  deriving DecidableEq, Repr

inductive SetState where
  | announcing | fed | diverting | recovering | packing
  deriving DecidableEq, Repr

inductive Role where
  | current | reserved
  deriving DecidableEq, Repr

/-- The cause of a set's diversion, kept by the Router (R91). -/
inductive DivertCause where
  | noCompiler | overrun
  deriving DecidableEq, Repr

/-- A set record (1.2). The role is absent exactly when the assigned compiler is, so the two stand together. -/
structure SetRec where
  key : SetKey
  pages : Nat
  next : Nat
  announced : Nat
  confirmed : Nat
  inCompiler : Nat
  assigned : Option (CompilerId × Role)
  thickness : Nat
  aborted : Bool
  reprinted : Bool
  divertPage : Option Nat
  divertCause : Option DivertCause
  state : SetState
  deriving DecidableEq, Repr

/-- The eight packet flags (R23). -/
structure PacketFlags where
  tooThick : Bool := false
  noStaple : Bool := false
  stapleFailed : Bool := false
  stapleUnverified : Bool := false
  incomplete : Bool := false
  reprinted : Bool := false
  overflow : Bool := false
  deliveryUncertain : Bool := false
  deriving DecidableEq, Repr

/-- A packet record (1.6). -/
structure Packet where
  seq : PacketSeq
  key : SetKey
  sheets : Nat
  thickness : Nat
  stapled : Bool
  side : Side
  flags : PacketFlags
  deriving DecidableEq, Repr

/-! ## The announce queue (02) -/

/-- What an Announce says of a sheet, kept by its queue entry and by its path record. The path record of 4.4 does not
list pages-in-set; the entry rebuilt at a demotion (R44) shows it "as the Announce gave it", so the record carries it
(DEDUCED, log 10). -/
structure Sheet where
  key : SetKey
  page : Nat
  pages : Nat
  media : Nat
  length : Nat
  deriving DecidableEq, Repr

/-- An entry of the announce queue (2.1); `late` is the head state LATE. -/
structure Entry where
  tag : Nat
  sheet : Sheet
  reprint : Bool
  void : Bool
  late : Bool
  deriving DecidableEq, Repr

/-! ## The path table (04) -/

inductive RecKind where
  | tentative | confirmed | stray | void
  deriving DecidableEq, Repr

inductive Route where
  | unset | purge | to (x : CompilerId)
  deriving DecidableEq, Repr

inductive DivertReason where
  | noCompiler | overrun | setDiverted | stray | void
  deriving DecidableEq, Repr

/-- A deadline: a tick and the sensor it awaits or watches (R52, R55). -/
structure Deadline where
  at_ : Tick
  sensor : Sensor
  deriving DecidableEq, Repr

/-- A path record (4.4). `sheet` is absent for a STRAY record. -/
structure PathRec where
  tag : Nat
  kind : RecKind
  sheet : Option Sheet
  route : Route
  reason : Option DivertReason
  lead : PerSensor (Option Tick)
  clear : PerSensor (Option Tick)
  leadDl : Option Deadline
  clearDl : Option Deadline
  slip : Bool
  parked : Bool
  deriving DecidableEq, Repr

inductive Transport where
  | off | spinup | run | halt | recover
  deriving DecidableEq, Repr

inductive HaltCause where
  | jam | coverFront | coverTop | purgeFull
  deriving DecidableEq, Repr

/-- The cause set (R68); a flag for each cause, so no cause is held twice. -/
structure CauseSet where
  jam : Bool := false
  coverFront : Bool := false
  coverTop : Bool := false
  purgeFull : Bool := false
  deriving DecidableEq, Repr

inductive JamKind where
  | late | early | stay | unexpected | overfill
  deriving DecidableEq, Repr

/-- The halt record (R67, 8.1); the jam kind and sensor are absent together. -/
structure HaltRecord where
  cause : HaltCause
  jam : Option (JamKind × Sensor)
  time : Tick
  deriving DecidableEq, Repr

/-- The Path Tracker's state. -/
structure Tracker where
  transport : Transport
  causes : CauseSet
  readings : PerSensor Bool
  path : List PathRec
  spinup : Option Tick
  idle : Option Tick
  purgeCount : Nat
  haltRecord : Option HaltRecord
  travels : List Nat
  deriving DecidableEq, Repr

/-! ## The Router (05) -/

/-- The positions of the diverter drive (R89). -/
inductive DiverterPos where
  | purge | feed
  deriving DecidableEq, Repr

/-- The last command of the gate drive (R94, R95). -/
inductive GatePos where
  | stop | pass
  deriving DecidableEq, Repr

/-- The Router and Buffer's state. The buffer is the parked records in table order (R94); the cause of each diversion
stands in its set's record. -/
structure Router where
  spacing : Option Tick
  lastTaker : CompilerId
  held : Bool
  diverter : DiverterPos
  gate : GatePos
  deriving DecidableEq, Repr

/-! ## The compilers (06) -/

inductive CState where
  | empty | gathering | closing | ready | transfer | clearWait | out
  deriving DecidableEq, Repr

/-- Close progress, present in CLOSING (6.1). `made` counts the positions made, so the stroke position is `made + 1`;
a stroke is in progress while `report` runs; `noMore` says that no further stroke may be made (R103 to R105, R112). -/
structure CloseProgress where
  planned : Nat
  made : Nat
  retry : Bool
  retries : Nat
  jogEnd : Option Tick
  report : Option Tick
  noMore : Bool
  deriving DecidableEq, Repr

/-- One compiler with its stapler (6.1). -/
structure Compiler where
  state : CState
  outPending : Bool
  current : Option SetKey
  reserved : Option SetKey
  count : Nat
  thickness : Nat
  tags : List Nat
  lastLanding : Tick
  settle : Option Tick
  close : Option CloseProgress
  jogStart : Tick
  packet : Option Packet
  transfer : Option Tick
  transferStart : Tick
  paper : Bool
  cycleMark : Bool
  fault : Bool
  staples : Nat
  latched : List Nat
  undeliverable : Bool
  blockedSent : Bool
  deriving DecidableEq, Repr

/-! ## The shuttle, the shelf and the bins (07) -/

inductive ShuttleState where
  | docked | loading | moving | dropping | returning | fault
  deriving DecidableEq, Repr

inductive Target where
  | bin (b : Fin 24) | shelf
  deriving DecidableEq, Repr

inductive Leg where
  | outbound | retarget | return
  deriving DecidableEq, Repr

/-- The move in progress; its timeout is absent while the TOWER cover has stopped it (R132). -/
structure Move where
  leg : Leg
  origin : Nat
  dest : Nat
  timeout : Option Tick
  deriving DecidableEq, Repr

/-- The Shuttle Controller's shuttle (7.1). -/
structure Shuttle where
  state : ShuttleState
  level : Nat
  target : Option Target
  packet : Option Packet
  granted : Option CompilerId
  move : Option Move
  dropEnd : Option Tick
  waiting : Bool
  suspended : Bool
  cycleMark : Bool
  reachedMark : Bool
  home : Bool
  free : Option Tick
  blockedSent : Bool
  deriving DecidableEq, Repr

/-- The overflow shelf (R141). -/
structure Shelf where
  height : Nat
  count : Nat
  fullMark : Bool
  readsEmpty : Bool
  deriving DecidableEq, Repr

inductive BinState where
  | free | owned | full | opened | held | out
  deriving DecidableEq, Repr

/-- One mailbox bin (7.6). The fill height is the sum of the list's thicknesses, the capacity a latched DELIVERY value. -/
structure Bin where
  state : BinState
  owner : Option (Fin 16)
  packets : List Packet
  preOpen : Option BinState
  door : Bool
  paper : Bool
  deriving DecidableEq, Repr

/-! ## The recovery list (08) -/

inductive RecoveryCause where
  | pathLoss | compilerLoss | discarded
  deriving DecidableEq, Repr

/-- An entry of the recovery list (8.1). -/
structure RecoveryEntry where
  key : SetKey
  first : Nat
  last : Nat
  cause : RecoveryCause
  deriving DecidableEq, Repr

/-- A present recovery list (R142). -/
structure RecoveryList where
  entries : List RecoveryEntry
  halt : HaltRecord
  overflow : Bool
  deriving DecidableEq, Repr

/-! ## Parameters (10) -/

/-- The staged values, each in the unit the host wrote (R170). -/
structure Staged where
  path : List Nat
  media : List Nat
  compile : List Nat
  delivery : List Nat
  mask : BitVec 23
  deriving DecidableEq, Repr

/-- The latched PATH, MEDIA and DELIVERY values, in the parameter's own unit (the conversion to ticks is made where a
value is used: log 13), and the notice mask in force (R164). -/
structure Latched where
  path : List Nat
  media : List Nat
  delivery : List Nat
  mask : BitVec 23
  deriving DecidableEq, Repr

/-- The causes of a Profile Fault (R175). -/
inductive ProfileCause where
  | none | header | pointer | length | checksum | id
  deriving DecidableEq, Repr

/-! ## The control link (09) -/

inductive Rate where
  | baud115200 | baud460800
  deriving DecidableEq, Repr

inductive RxState where
  | hunt | length | body | check
  deriving DecidableEq, Repr

/-- The receiver (R160). -/
structure Receiver where
  state : RxState
  len : Nat
  body : List Byte
  crc : List Byte
  deadline : Option Tick
  deriving DecidableEq, Repr

/-- Reply statuses (R161). -/
inductive ReplyStatus where
  | ok | clamped | starting | refused
  deriving DecidableEq, Repr

/-- The reason codes, in the order of the reason table of 09. -/
inductive Reason where
  | unknownRequest | badLength | badField | runInUse | unknownRun | runNotOpen | setDone | setInterleaved
  | outOfOrder | pagesMismatch | tooThick | duplicateTag | queueFull | tableFull | diverted | notFound | tooLate
  | halted | busy
  deriving DecidableEq, Repr

/-- A reply (R161, 11.2); `body` is the body's bytes by 11.4. -/
structure Reply where
  kind : Byte
  seq : Byte
  status : ReplyStatus
  reason : Option Reason
  body : List Byte
  deriving DecidableEq, Repr

/-- Causes of a Stray notice (R45). -/
inductive StrayCause where
  | unannounced | guard | length
  deriving DecidableEq, Repr

/-- Causes of a Link Error notice (R160, R162). -/
inductive LinkCause where
  | gap | length | crc | badStop | overrun
  deriving DecidableEq, Repr

/-- The cover a Cover notice names (11.7). -/
inductive CoverName where
  | front | top | tower
  deriving DecidableEq, Repr

/-- Causes of a Stapler Fault notice (R104, R105). -/
inductive StaplerCause where
  | notFormed | noReport
  deriving DecidableEq, Repr

/-- The hold conditions of R88. -/
structure PaceConditions where
  noCompiler : Bool
  purgeFull : Bool
  noTarget : Bool
  deriving DecidableEq, Repr

/-- Where a Packet Delivered notice says the packet went (R128, R130). -/
inductive Place where
  | bin (b : Fin 24) | shelf | nowhere
  deriving DecidableEq, Repr

/-- The 23 notices with the fields their rules name (9.4, 11.7). A Pace notice has three forms. -/
inductive NoticeBody where
  | ready
  | paceGap (tag pitches : Nat) (x : CompilerId) (hold : Nat)
  | paceHold (c : PaceConditions)
  | paceRelease
  | entryLate (tag : Nat) (key : SetKey) (page : Nat) (start : Tick)
  | sheetMissing (tag removed : Nat)
  | stray (cause : StrayCause) (tag : Nat) (lead : Tick) (announced measured : Nat)
  | slip (tag : Nat) (sensor : Sensor) (deadline : Tick)
  | jam (kind : JamKind) (sensor : Sensor) (tag : Nat) (sheet : Option Sheet) (deadline : Option Tick) (time : Tick)
  | cover (c : CoverName) (opened : Bool)
  | recoveryReady (count : Nat) (halt : HaltRecord) (overflow : Bool)
  | setDiverted (key : SetKey) (page : Nat) (cause : DivertCause) (x : Option CompilerId) (inCompiler : Nat)
  | packetDelivered (place : Place) (p : Packet)
  | binFull (b : Fin 24) (owner : Option (Fin 16)) (height capacity count : Nat)
  | binCollected (b : Fin 24) (label : List Byte) (removed : Nat)
  | runDone (r : Fin 16) (delivered aborted : Nat)
  | deliveryBlocked (x : Option CompilerId) (level : Option Nat) (p : Packet) (active : Option (Fin 24))
  | stapleLow (x : CompilerId) (count threshold : Nat)
  | stapleOut (x : CompilerId) (count threshold : Nat)
  | staplerFault (x : CompilerId) (p : Packet) (position : Nat) (cause : StaplerCause)
  | shuttleFault (leg : Leg) (origin dest : Nat) (p : Option Packet)
  | purgeFull (count capacity : Nat) (halted : Bool)
  | linkError (cause : LinkCause) (length : Nat) (kind seq : Byte)
  | parameterAdjusted (id staged inForce against : Nat)
  | profileFault (causes : List ProfileCause)
  deriving DecidableEq, Repr

/-- A queued notice: its stamp, the tick of its making and its body (R163). -/
structure Notice where
  stamp : Byte
  tick : Tick
  body : NoticeBody
  deriving DecidableEq, Repr

/-- The Link Controller's state. -/
structure Link where
  rate : Rate
  strapMismatch : Bool
  rx : Receiver
  replies : List Reply
  notices : List Notice
  lost : Bool
  counter : Byte
  /-- the bytes of the frame on the transmit wire; absent when the wire is idle -/
  wire : Option (List Byte)
  /-- a Restart FULL has been accepted and waits for its reply to be sent -/
  restartWait : Bool
  deriving DecidableEq, Repr

/-! ## Pins -/

/-- The levels of the input pins (spec/00 section 8). -/
structure Pins where
  sensors : PerSensor Bool
  front : Bool
  top : Bool
  tower : Bool
  doors : List Bool
  binPapers : List Bool
  compPaperA : Bool
  compPaperB : Bool
  cartA : Bool
  cartB : Bool
  home : Bool
  shelfEmpty : Bool
  strap1 : Bool
  strap2 : Bool
  deriving DecidableEq, Repr

/-- A quiet tower: nothing covered, every cover and door closed, no paper anywhere, cartridges in, the shuttle home and
both straps low (DESIGN CHOICE: the spec gives no input level, log 5). -/
def Pins.quiet : Pins :=
  { sensors := PerSensor.all false, front := false, top := false, tower := false,
    doors := List.replicate 24 false, binPapers := List.replicate 24 false,
    compPaperA := false, compPaperB := false, cartA := true, cartB := true,
    home := true, shelfEmpty := true, strap1 := false, strap2 := false }

/-- The state of the part. -/
structure State where
  /-- commands waiting, first in, first out -/
  pending : List Instr
  /-- the tick counter (R48) -/
  now : Tick
  /-- the profile load runs (R176) -/
  loading : Bool
  pins : Pins
  /-- the configuration memory: bytes by address, canonical; an unlisted byte reads 0xFF -/
  image : List Host.Cell
  link : Link
  /-- the run table, 16 places (1.1) -/
  runs : List (Option Run)
  /-- the set table, 32 slots (1.2) -/
  sets : List (Option SetRec)
  /-- the packet sequence counter (R21) -/
  nextSeq : PacketSeq
  /-- the announce queue, head first (R25) -/
  queue : List Entry
  /-- the start of the head entry window (R35) -/
  window : Option Tick
  /-- the end of the withdraw guard (R40) -/
  guard : Option Tick
  tracker : Tracker
  router : Router
  compA : Compiler
  compB : Compiler
  shuttle : Shuttle
  shelf : Shelf
  /-- the 24 bins (7.6) -/
  bins : List Bin
  /-- the recovery list (R142) -/
  recovery : Option RecoveryList
  staged : Staged
  latched : Latched
  /-- the Status profile marks, PATH first (R176) -/
  profileMarks : List Bool
  deriving DecidableEq, Repr

/-! ## Power-on -/

/-- A compiler as it stands before its start-up reads the inputs (R98). -/
def Compiler.initial : Compiler :=
  { state := .empty, outPending := false, current := none, reserved := none, count := 0, thickness := 0, tags := [],
    lastLanding := 0, settle := none, close := none, jogStart := 0, packet := none, transfer := none,
    transferStart := 0, paper := false, cycleMark := false, fault := false, staples := 0,
    latched := Config.compileDefaults, undeliverable := false, blockedSent := false }

/-- The shuttle as it stands before its start-up reads the inputs (R120). -/
def Shuttle.initial : Shuttle :=
  { state := .docked, level := 0, target := none, packet := none, granted := none, move := none, dropEnd := none,
    waiting := false, suspended := false, cycleMark := false, reachedMark := false, home := false, free := none,
    blockedSent := false }

/-- A bin as it stands before its start-up reads the inputs (R134). -/
def Bin.initial : Bin :=
  { state := .free, owner := none, packets := [], preOpen := none, door := false, paper := false }

/-- The receiver in HUNT with no timer running (R169). -/
def Receiver.hunting : Receiver := { state := .hunt, len := 0, body := [], crc := [], deadline := none }

/-- The rate the straps select (R158): 460,800 only when both are high. -/
def Pins.rate (p : Pins) : Rate := if p.strap1 && p.strap2 then .baud460800 else .baud115200

/-- The Link Controller at power-on and Restart FULL (R169). -/
def Link.initial (p : Pins) : Link :=
  { rate := p.rate, strapMismatch := p.strap1 != p.strap2, rx := Receiver.hunting, replies := [], notices := [],
    lost := false, counter := 0, wire := none, restartWait := false }

/-- The part at the release of reset or the taking effect of a Restart FULL, the profile load just begun (R169, R176,
R177): every block at the value its chapter gives for power-on; what reads an input is taken from it when the load ends
(R176). Values before that moment that no rule gives are the model's (log 7, 38). -/
def State.powerOn (pins : Pins) (image : List Host.Cell) (pending : List Instr) : State :=
  { pending := pending, now := 0, loading := true, pins := pins, image := image, link := Link.initial pins,
    runs := List.replicate 16 none, sets := List.replicate 32 none, nextSeq := 1,
    queue := [], window := none, guard := none,
    tracker :=
      { transport := .off, causes := {}, readings := PerSensor.all false, path := [], spinup := none, idle := none,
        purgeCount := 0, haltRecord := none, travels := Config.travelDefaults },
    router := { spacing := none, lastTaker := .b, held := false, diverter := .feed, gate := .stop },
    compA := Compiler.initial, compB := Compiler.initial,
    shuttle := Shuttle.initial,
    shelf := { height := 0, count := 0, fullMark := false, readsEmpty := false },
    bins := List.replicate 24 Bin.initial,
    recovery := none,
    staged :=
      { path := Config.pathDefaults, media := Config.mediaDefaults, compile := Config.compileDefaults,
        delivery := Config.deliveryDefaults, mask := Config.maskDefault },
    latched :=
      { path := Config.pathDefaults, media := Config.mediaDefaults, delivery := Config.deliveryDefaults,
        mask := Config.maskDefault },
    profileMarks := List.replicate 5 false }

/-- The part right after reset: the profile load has begun, the inputs are quiet (log 5), the configuration memory is
blank (log 6) and no command waits. -/
def State.reset : State := State.powerOn Pins.quiet [] []

end Sys2Proof.Machine
end

