-- ==== Sys2Proof/Machine/Flags.lean ====
section
/-! DEFINITION. The flag bytes of the records on the link (11.1 to 11.7): bit n of a byte from a list of flags. -/

namespace Sys2Proof.Machine

/-- The value whose bit n is the n-th flag of the list, lowest first. -/
def bitsOf : List Bool → Nat
  | [] => 0
  | b :: bs => (if b then 1 else 0) + 2 * bitsOf bs

/-- The cause set's bits (11.1). -/
def CauseSet.bits (c : CauseSet) : Nat := bitsOf [c.jam, c.coverFront, c.coverTop, c.purgeFull]

/-- No cause is outstanding (R68, R70). -/
def CauseSet.isEmpty (c : CauseSet) : Bool := !c.jam && !c.coverFront && !c.coverTop && !c.purgeFull

/-- The cause set with one cause added (R67). -/
def CauseSet.add (c : CauseSet) : HaltCause → CauseSet
  | .jam => { c with jam := true }
  | .coverFront => { c with coverFront := true }
  | .coverTop => { c with coverTop := true }
  | .purgeFull => { c with purgeFull := true }

/-- The packet flags' bits (11.1). -/
def PacketFlags.bits (f : PacketFlags) : Nat :=
  bitsOf [f.tooThick, f.noStaple, f.stapleFailed, f.stapleUnverified, f.incomplete, f.reprinted, f.overflow,
    f.deliveryUncertain]

/-- The hold conditions' bits in a Pace notice (11.7). -/
def PaceConditions.bits (c : PaceConditions) : Nat := bitsOf [c.noCompiler, c.purgeFull, c.noTarget]

/-- Some hold condition holds (R88). -/
def PaceConditions.any (c : PaceConditions) : Bool := c.noCompiler || c.purgeFull || c.noTarget

/-- The flags of a queue entry in Read Table (11.5). -/
def Entry.flagBits (e : Entry) : Nat := bitsOf [e.reprint, e.void, e.late]

/-- A set's flag in its run's done map (11.5): bit set - 1. -/
def doneBit (set : Nat) : BitVec 255 := BitVec.ofNat 255 1 <<< (set - 1)

/-- The set number is marked in the done map. -/
def Run.isDone (r : Run) (set : Nat) : Bool := r.done.getLsbD (set - 1)

end Sys2Proof.Machine
end

