-- ==== Sys2Proof/Machine/Layout.lean ====
section
/-! DEFINITION. The byte layouts of chapter 11: enumeration codes, frames with their CRC, replies, notices, packet and halt
records. The table records and the Status body, which read the whole state, are in Machine/Tables.lean. -/

namespace Sys2Proof.Machine

/-! ## Numbers -/

/-- The n low bytes of a number, low byte first (11: "Multi-byte fields are sent low byte first"). -/
def le : Nat → Nat → List Byte
  | 0, _ => []
  | n + 1, v => BitVec.ofNat 8 v :: le n (v / 256)

/-- The number a little-endian field holds. -/
def ofLe : List Byte → Nat
  | [] => 0
  | b :: bs => b.toNat + 256 * ofLe bs

/-- A one-byte field. -/
def byte (v : Nat) : Byte := BitVec.ofNat 8 v

/-- A tick field, 4 bytes. -/
def leTick (t : Tick) : List Byte := le 4 t.toNat

/-- n bytes of 0. -/
def zeros (n : Nat) : List Byte := List.replicate n 0

/-! ## Field codes (11.1) -/

def sensorCode : Sensor → Nat
  | .s0 => 0 | .s1 => 1 | .s2 => 2 | .s3p => 3 | .s3 => 4 | .s4 => 5 | .s5a => 6 | .s5b => 7

def compilerIdCode : CompilerId → Nat
  | .a => 1 | .b => 2

def compilerCode : Option CompilerId → Nat
  | none => 0 | some x => compilerIdCode x

def runCode : Option (Fin 16) → Nat
  | none => 255 | some r => r.val

def binCode : Option (Fin 24) → Nat
  | none => 255 | some b => b.val

def targetCode : Option Target → Nat
  | none => 255 | some (.bin b) => b.val | some .shelf => 24

def Place.code : Place → Nat
  | .bin b => b.val | .shelf => 24 | .nowhere => 255

def Transport.code : Transport → Nat
  | .off => 0 | .spinup => 1 | .run => 2 | .halt => 3 | .recover => 4

def HaltCause.code : HaltCause → Nat
  | .jam => 1 | .coverFront => 2 | .coverTop => 3 | .purgeFull => 4

def JamKind.code : JamKind → Nat
  | .late => 1 | .early => 2 | .stay => 3 | .unexpected => 4 | .overfill => 5

def RecKind.code : RecKind → Nat
  | .tentative => 0 | .confirmed => 1 | .stray => 2 | .void => 3

def Route.code : Route → Nat
  | .unset => 0 | .purge => 1 | .to .a => 2 | .to .b => 3

def reasonCodeOfDivert : Option DivertReason → Nat
  | none => 0 | some .noCompiler => 1 | some .overrun => 2 | some .setDiverted => 3 | some .stray => 4 | some .void => 5

def SetState.code : SetState → Nat
  | .announcing => 0 | .fed => 1 | .diverting => 2 | .recovering => 3 | .packing => 4

def Role.code : Role → Nat
  | .current => 1 | .reserved => 2

def RunState.code : RunState → Nat
  | .opened => 0 | .aborted => 1 | .done => 2

def Pattern.code : Pattern → Nat
  | .none => 0 | .corner => 1 | .edge2 => 2

def FillOrder.code : FillOrder → Nat
  | .ascending => 0 | .descending => 1

def Policy.code : Policy → Nat
  | .keepPartial => 0 | .wholeSet => 1

def OffsetMode.code : OffsetMode → Nat
  | .alternate => 0 | .none => 1

def Side.code : Side → Nat
  | .none => 0 | .left => 1 | .right => 2

def CState.code : CState → Nat
  | .empty => 0 | .gathering => 1 | .closing => 2 | .ready => 3 | .transfer => 4 | .clearWait => 5 | .out => 6

def ShuttleState.code : ShuttleState → Nat
  | .docked => 0 | .loading => 1 | .moving => 2 | .dropping => 3 | .returning => 4 | .fault => 5

def BinState.code : BinState → Nat
  | .free => 0 | .owned => 1 | .full => 2 | .opened => 3 | .held => 4 | .out => 5

def RecoveryCause.code : RecoveryCause → Nat
  | .pathLoss => 1 | .compilerLoss => 2 | .discarded => 3

def ProfileCause.code : ProfileCause → Nat
  | .none => 0 | .header => 1 | .pointer => 2 | .length => 3 | .checksum => 4 | .id => 5

def ReplyStatus.code : ReplyStatus → Nat
  | .ok => 0 | .clamped => 1 | .starting => 2 | .refused => 3

def Reason.code : Reason → Nat
  | .unknownRequest => 1 | .badLength => 2 | .badField => 3 | .runInUse => 4 | .unknownRun => 5 | .runNotOpen => 6
  | .setDone => 7 | .setInterleaved => 8 | .outOfOrder => 9 | .pagesMismatch => 10 | .tooThick => 11
  | .duplicateTag => 12 | .queueFull => 13 | .tableFull => 14 | .diverted => 15 | .notFound => 16 | .tooLate => 17
  | .halted => 18 | .busy => 19

def reasonCode : Option Reason → Nat
  | none => 0 | some r => r.code

def StrayCause.code : StrayCause → Nat
  | .unannounced => 1 | .guard => 2 | .length => 3

def LinkCause.code : LinkCause → Nat
  | .gap => 1 | .length => 2 | .crc => 3 | .badStop => 4 | .overrun => 5

def CoverName.code : CoverName → Nat
  | .front => 0 | .top => 1 | .tower => 2

def StaplerCause.code : StaplerCause → Nat
  | .notFormed => 1 | .noReport => 2

def Leg.code : Leg → Nat
  | .outbound => 1 | .retarget => 2 | .return => 3

def DivertCause.code : DivertCause → Nat
  | .noCompiler => 1 | .overrun => 2

/-! ## Frames -/

/-- One bit of the CRC of R159: generator x^16 + x^12 + x^5 + 1, most significant bit first. -/
def crcBit (c : BitVec 16) : BitVec 16 := if c.msb then (c <<< 1) ^^^ 0x1021#16 else c <<< 1

/-- One byte of the CRC: its eight bits. -/
def crcByte (c : BitVec 16) (b : Byte) : BitVec 16 :=
  (List.range 8).foldl (fun c _ => crcBit c) (c ^^^ (b.setWidth 16 <<< 8))

/-- The CRC of a run of bytes: initial value 0xFFFF, no final inversion (R159). -/
def crc16 (bs : List Byte) : BitVec 16 := bs.foldl crcByte 0xFFFF#16

/-- A whole frame (11.2): start, length, kind, sequence, payload, CRC low byte first. -/
def frame (kind seq : Byte) (payload : List Byte) : List Byte :=
  let counted := byte (payload.length + 2) :: kind :: seq :: payload
  0xD5#8 :: counted ++ le 2 (crc16 counted).toNat

/-! ## Packets, halt records, entries -/

/-- A packet record, 10 bytes (11.7). -/
def Packet.bytes (p : Packet) : List Byte :=
  le 2 p.seq.toNat ++ [byte p.key.run.val, byte p.key.set, byte p.sheets] ++ le 2 p.thickness ++
    [byte (bitsOf [p.stapled]), byte p.side.code, byte p.flags.bits]

/-- A halt record with its overflow mark, 8 bytes (11.4). -/
def HaltRecord.bytes (h : HaltRecord) (overflow : Bool) : List Byte :=
  let kind := match h.jam with
    | none => 0
    | some (k, _) => k.code
  let sensor := match h.jam with
    | none => 255
    | some (_, x) => sensorCode x
  [byte h.cause.code, byte kind, byte sensor] ++ leTick h.time ++ [byte (bitsOf [overflow])]

/-- A recovery entry, 5 bytes (11.4). -/
def RecoveryEntry.bytes (e : RecoveryEntry) : List Byte :=
  [byte e.key.run.val, byte e.key.set, byte e.first, byte e.last, byte e.cause.code]

/-! ## Notices -/

/-- The mask position of a notice, which is also its kind byte (9.4, 11.2). -/
def NoticeBody.kind : NoticeBody → Nat
  | .ready => 1
  | .paceGap .. => 2
  | .paceHold .. => 2
  | .paceRelease => 2
  | .entryLate .. => 3
  | .sheetMissing .. => 4
  | .stray .. => 5
  | .slip .. => 6
  | .jam .. => 7
  | .cover .. => 8
  | .recoveryReady .. => 9
  | .setDiverted .. => 10
  | .packetDelivered .. => 11
  | .binFull .. => 12
  | .binCollected .. => 13
  | .runDone .. => 14
  | .deliveryBlocked .. => 15
  | .stapleLow .. => 16
  | .stapleOut .. => 17
  | .staplerFault .. => 18
  | .shuttleFault .. => 19
  | .purgeFull .. => 20
  | .linkError .. => 21
  | .parameterAdjusted .. => 22
  | .profileFault .. => 23

/-- The body bytes of a Pace notice (11.7); fields a form does not use are 0. -/
def paceBytes (kind tag pitches compiler hold conditions : Nat) : List Byte :=
  [byte kind] ++ le 2 tag ++ [byte pitches, byte compiler] ++ le 4 hold ++ [byte conditions]

/-- The run, set and page fields of a Jam notice: absent codes where the record has none (11.1). -/
def sheetBytes : Option Sheet → List Byte
  | none => [255, 0, 0]
  | some sh => [byte sh.key.run.val, byte sh.key.set, byte sh.page]

/-- The body of a notice (11.7). -/
def NoticeBody.bytes : NoticeBody → List Byte
  | .ready => []
  | .paceGap tag g x h => paceBytes 1 tag g (compilerIdCode x) h 0
  | .paceHold c => paceBytes 2 0 0 0 0 c.bits
  | .paceRelease => paceBytes 3 0 0 0 0 0
  | .entryLate tag k page start => le 2 tag ++ [byte k.run.val, byte k.set, byte page] ++ leTick start
  | .sheetMissing tag n => le 2 tag ++ [byte n]
  | .stray c tag lead a m => [byte c.code] ++ le 2 tag ++ leTick lead ++ le 2 a ++ le 2 m
  | .slip tag x d => le 2 tag ++ [byte (sensorCode x)] ++ leTick d
  | .jam k x tag sh d t =>
    [byte k.code, byte (sensorCode x)] ++ le 2 tag ++ sheetBytes sh ++ leTick (d.getD 0) ++ leTick t
  | .cover c o => [byte c.code, byte (bitsOf [o])]
  | .recoveryReady n h o => [byte n] ++ h.bytes o
  | .setDiverted k page c x n =>
    [byte k.run.val, byte k.set, byte page, byte c.code, byte (compilerCode x), byte n]
  | .packetDelivered pl p => [byte pl.code] ++ p.bytes
  | .binFull b r h c n => [byte b.val, byte (runCode r)] ++ le 4 h ++ le 4 c ++ [byte n]
  | .binCollected b l n => [byte b.val] ++ l ++ [byte n]
  | .runDone r d a => [byte r.val, byte d, byte a]
  | .deliveryBlocked x l p b =>
    [byte (compilerCode x), byte (l.getD 255)] ++ le 2 p.seq.toNat ++ [byte p.key.run.val, byte p.key.set] ++
      le 2 p.thickness ++ [byte (binCode b)]
  | .stapleLow x n t => [byte (compilerIdCode x)] ++ le 2 n ++ le 2 t
  | .stapleOut x n t => [byte (compilerIdCode x)] ++ le 2 n ++ le 2 t
  | .staplerFault x p pos c =>
    [byte (compilerIdCode x)] ++ le 2 p.seq.toNat ++ [byte p.key.run.val, byte p.key.set, byte pos, byte c.code]
  | .shuttleFault l o d p =>
    [1, byte l.code, byte o, byte d, byte (bitsOf [p.isSome])] ++ le 2 ((p.map (·.seq.toNat)).getD 0)
  | .purgeFull n c h => le 2 n ++ le 2 c ++ [byte (bitsOf [h])]
  | .linkError c n k q => [byte c.code, byte n, k, q]
  | .parameterAdjusted i v w a => [byte i] ++ le 4 v ++ le 4 w ++ [byte a]
  | .profileFault cs => cs.map (fun c => byte c.code)

/-- A notice's frame (11.2, R179): kind byte 0xFF, the stamp in the sequence byte. -/
def Notice.frame (n : Notice) : List Byte :=
  Machine.frame 0xFF#8 n.stamp (byte n.body.kind :: leTick n.tick ++ n.body.bytes)

/-- A reply's frame (11.2). -/
def Reply.frame (r : Reply) : List Byte :=
  Machine.frame r.kind r.seq (byte r.status.code :: byte (reasonCode r.reason) :: r.body)

end Sys2Proof.Machine
end

