-- ==== Sys2Proof/Machine/Ops.lean ====
section
/-! DEFINITION. The named operations over the state: tick comparisons, accessors of the tables, latched figures, and the
Link Controller's two queues with the transmit wire. -/

namespace Sys2Proof.Machine

/-! ## Ticks (R48) -/

/-- A deadline or timer end `d` is reached at `now`: the signed difference now - d is zero or positive. -/
def reached (now d : Tick) : Bool := !(now - d).msb

/-- `a` is earlier than `b`: the signed difference a - b is negative. -/
def earlier (a b : Tick) : Bool := (a - b).msb

/-- The later of two ticks. -/
def laterOf (a b : Tick) : Tick := if earlier a b then b else a

/-- `n` ticks after `t`. -/
def after (t : Tick) (n : Nat) : Tick := t + BitVec.ofNat 32 n

/-- A timer that runs has reached its end. -/
def expired (now : Tick) : Option Tick → Bool
  | none => false
  | some d => reached now d

/-- Division rounded up. -/
def ceilDiv (a b : Nat) : Nat := (a + b - 1) / b

/-! ## Sensors -/

def PerSensor.get {α : Type} (p : PerSensor α) : Sensor → α
  | .s0 => p.s0 | .s1 => p.s1 | .s2 => p.s2 | .s3p => p.s3p | .s3 => p.s3 | .s4 => p.s4 | .s5a => p.s5a | .s5b => p.s5b

def PerSensor.set {α : Type} (p : PerSensor α) (x : Sensor) (v : α) : PerSensor α :=
  match x with
  | .s0 => { p with s0 := v } | .s1 => { p with s1 := v } | .s2 => { p with s2 := v } | .s3p => { p with s3p := v }
  | .s3 => { p with s3 := v } | .s4 => { p with s4 := v } | .s5a => { p with s5a := v } | .s5b => { p with s5b := v }

/-- The sensors in the order of R63, which is also the order of their codes. -/
def allSensors : List Sensor := [.s0, .s1, .s2, .s3p, .s3, .s4, .s5a, .s5b]

/-- All eight path sensors read uncovered (R68, R70). -/
def uncovered (r : PerSensor Bool) : Bool := allSensors.all (fun x => !r.get x)

/-! ## Latched figures -/

/-- The latched PATH value at place `i` of ids 1 to 25, in its own unit. -/
def State.path (s : State) (i : Nat) : Nat := s.latched.path.getD i 0
/-- A latched PATH time in ticks: milliseconds times 10 (R49). -/
def State.pathTicks (s : State) (i : Nat) : Nat := 10 * s.path i
def State.zoneSpeed (s : State) (z : Nat) : Nat := s.path (7 + z)
def State.tSlip (s : State) : Nat := s.pathTicks 14
def State.tJam (s : State) : Nat := s.pathTicks 15
def State.tEarly (s : State) : Nat := s.pathTicks 16
def State.wEntry (s : State) : Nat := s.pathTicks 17
def State.tGuard (s : State) : Nat := s.pathTicks 18
def State.lTol (s : State) : Nat := s.path 19
def State.tSpinup (s : State) : Nat := s.pathTicks 20
def State.tIdle (s : State) : Nat := s.pathTicks 21
def State.pitch (s : State) : Nat := s.pathTicks 22
def State.tRelease (s : State) : Nat := s.pathTicks 23
def State.purgeCapacity (s : State) : Nat := s.path 24

/-- The latched thickness of a media class (R11). -/
def State.mediaThickness (s : State) (c : Nat) : Nat := s.latched.media.getD c 0

def Compiler.tSettle (c : Compiler) : Nat := 10 * c.latched.getD 0 0
def Compiler.tJog (c : Compiler) : Nat := 10 * c.latched.getD 1 0
def Compiler.tStaple (c : Compiler) : Nat := 10 * c.latched.getD 2 0
def Compiler.tTransfer (c : Compiler) : Nat := 10 * c.latched.getD 3 0
def Compiler.stapleLimit (c : Compiler) : Nat := c.latched.getD 4 0
def Compiler.capacity (c : Compiler) : Nat := c.latched.getD 5 0
def Compiler.threshold (c : Compiler) : Nat := c.latched.getD 6 0

def State.delivery (s : State) (i : Nat) : Nat := s.latched.delivery.getD i 0
def State.tBase (s : State) : Nat := 10 * s.delivery 0
def State.tLevel (s : State) : Nat := 10 * s.delivery 1
def State.tDrop (s : State) : Nat := 10 * s.delivery 2
def State.shuttleMargin (s : State) : Nat := 10 * s.delivery 3
def State.shelfCapacity (s : State) : Nat := s.delivery 4
def State.binCapacity (s : State) (b : Fin 24) : Nat := s.delivery (5 + b.val)

/-! ## Tables -/

def State.comp (s : State) : CompilerId → Compiler
  | .a => s.compA
  | .b => s.compB

def modComp (x : CompilerId) (f : Compiler → Compiler) (s : State) : State :=
  match x with
  | .a => { s with compA := f s.compA }
  | .b => { s with compB := f s.compB }

def otherCompiler : CompilerId → CompilerId
  | .a => .b
  | .b => .a

/-- The S5 sensor of a compiler (R73). -/
def s5Of : CompilerId → Sensor
  | .a => .s5a
  | .b => .s5b

def State.getRun (s : State) (r : Fin 16) : Option Run := (s.runs[r.val]?).join

def modRun (r : Fin 16) (f : Run → Run) (s : State) : State :=
  { s with runs := s.runs.modify r.val (fun o => o.map f) }

/-- Puts a record in a run's place, or empties the place. -/
def setRun (r : Fin 16) (o : Option Run) (s : State) : State := { s with runs := s.runs.set r.val o }

/-- A run's record satisfies `p`. -/
def State.runHas (s : State) (r : Fin 16) (p : Run → Bool) : Bool := (s.getRun r).any p

/-- The record of a set, if it has one. -/
def State.getSet (s : State) (k : SetKey) : Option SetRec :=
  s.sets.findSome? (fun o => o.bind (fun r => if r.key = k then some r else none))

def modSet (k : SetKey) (f : SetRec → SetRec) (s : State) : State :=
  { s with sets := s.sets.map (fun o => o.map (fun r => if r.key = k then f r else r)) }

/-- Empties the slot of a set. -/
def clearSet (k : SetKey) (s : State) : State :=
  { s with sets := s.sets.map (fun o => o.bind (fun r => if r.key = k then none else some r)) }

/-- The occupied slots' records, in slot order. -/
def State.setRecs (s : State) : List SetRec := s.sets.filterMap id

/-- The lowest-numbered free slot (R8). -/
def State.freeSlot (s : State) : Option Nat := s.sets.findIdx? (·.isNone)

/-- A run has a set record. -/
def State.runHasSets (s : State) (r : Fin 16) : Bool := s.setRecs.any (fun q => q.key.run == r)

def State.getBin (s : State) (b : Fin 24) : Bin := s.bins.getD b.val Bin.initial

def modBin (b : Fin 24) (f : Bin → Bin) (s : State) : State := { s with bins := s.bins.modify b.val f }

/-- A bin's fill height: the sum of the thicknesses of its packets (7.6). -/
def Bin.height (b : Bin) : Nat := (b.packets.map (·.thickness)).sum

/-- All 24 bin numbers, ascending. -/
def allBins : List (Fin 24) := (List.range 24).map (Fin.ofNat 24)

/-- All 16 run numbers, ascending. -/
def allRuns : List (Fin 16) := (List.range 16).map (Fin.ofNat 16)

def modTracker (f : Tracker → Tracker) (s : State) : State := { s with tracker := f s.tracker }
def modRouter (f : Router → Router) (s : State) : State := { s with router := f s.router }
def modShuttle (f : Shuttle → Shuttle) (s : State) : State := { s with shuttle := f s.shuttle }
def modLink (f : Link → Link) (s : State) : State := { s with link := f s.link }

/-- Changes the record at place `i` of the path table. -/
def modRec (i : Nat) (f : PathRec → PathRec) (s : State) : State :=
  modTracker (fun t => { t with path := t.path.modify i f }) s

/-- The set of a path record, absent for a STRAY. -/
def PathRec.key (r : PathRec) : Option SetKey := r.sheet.map (·.key)

/-- A path record is of a set. -/
def PathRec.of (r : PathRec) (k : SetKey) : Bool := r.key == some k

/-- A CONFIRMED path record of the set remains. -/
def State.hasConfirmed (s : State) (k : SetKey) : Bool :=
  s.tracker.path.any (fun r => r.kind == .confirmed && r.of k)

/-- The buffer: the parked records, oldest first (R94). -/
def State.buffer (s : State) : List PathRec := s.tracker.path.filter (·.parked)

/-- The places held for entries matched at S0 and not yet past their S0 clear event (R26, log 11). -/
def State.placesHeld (s : State) : Nat :=
  s.tracker.path.countP (fun r => (r.kind == .tentative || r.kind == .void) && r.clear.s0.isNone)

/-- Credits (R26). -/
def State.credits (s : State) : Nat := Config.queuePlaces - s.queue.length

/-- The purge tray is full (R82). -/
def State.trayFull (s : State) : Bool := decide (s.purgeCapacity ≤ s.tracker.purgeCount)

/-! ## The Link Controller's queues and the transmit wire (R161 to R165) -/

/-- The arbiter's choice when the wire is free: the oldest reply, else the oldest notice, else idle (R165). -/
def Link.sendNext (l : Link) : Link :=
  match l.replies with
  | r :: rs => { l with replies := rs, wire := some r.frame }
  | [] =>
    match l.notices with
    | n :: ns => { l with notices := ns, wire := some n.frame }
    | [] => { l with wire := none }

/-- A frame has joined a queue: the arbiter chooses if the wire is idle (R165). -/
def Link.wake (l : Link) : Link := if l.wire.isNone then l.sendNext else l

/-- A notice is taken by the Link Controller when its kind is enabled: dropped when the FIFO is full, else stamped and
queued (R163). -/
def Link.queueNotice (now : Tick) (b : NoticeBody) (l : Link) : Link :=
  if Config.noticePlaces ≤ l.notices.length then { l with lost := true }
  else
    Link.wake
      { l with notices := l.notices ++ [{ stamp := l.counter, tick := now, body := b }], counter := l.counter + 1 }

/-- A reply joins the reply queue (R161). -/
def Link.queueReply (r : Reply) (l : Link) : Link := Link.wake { l with replies := l.replies ++ [r] }

/-- A block makes a notice (R163): discarded during the profile load, ignored when masked, else queued or dropped. -/
def notify (b : NoticeBody) (s : State) : State :=
  if s.loading then s
  else if s.latched.mask.getLsbD (b.kind - 1) then { s with link := s.link.queueNotice s.now b }
  else s

/-- Changes the input levels. -/
def modPins (f : Pins → Pins) (s : State) : State := { s with pins := f s.pins }

/-- An event at the mechanism port: the input takes its new level, and outside the profile load the block that owns the
input takes the event (R176: "the mechanism port's events are not taken" during the load). -/
def takeEvent (pin : Pins → Pins) (event : State → State) (s : State) : State :=
  if s.loading then modPins pin s else event (modPins pin s)

end Sys2Proof.Machine
end

