-- ==== Sys2Proof/Machine/Timing.lean ====
section
/-! DEFINITION. Path timing and pacing arithmetic (03): travels, passages, deadlines, free estimates, gap and shuttle moves.
Zones are numbered Z1 0, Z2 1, Z3P 2, Z3 3, Z4 4, Z5A 5, Z5B 6, the order of the parameter ids (R170). -/

namespace Sys2Proof.Machine

/-- The travel of a zone of length `l` mm at `v` mm/s, in ticks, rounded up (R50). -/
def travelOf (l v : Nat) : Nat := ceilDiv (l * 10000) v

/-- The seven travels of a set of latched PATH values (R50). -/
def travelsOf (path : List Nat) : List Nat :=
  (List.range 7).map (fun z => travelOf (path.getD z 0) (path.getD (7 + z) 0))

/-- The held travel of a zone (R50). -/
def State.travel (s : State) (z : Nat) : Nat := s.tracker.travels.getD z 0

/-- The sensors of a route, in order (R73). -/
def Route.sensors : Route → List Sensor
  | .unset => [.s0, .s1, .s2]
  | .purge => [.s0, .s1, .s2, .s3p]
  | .to .a => [.s0, .s1, .s2, .s3, .s4, .s5a]
  | .to .b => [.s0, .s1, .s2, .s3, .s4, .s5b]

/-- The sensor after `x` in a list of sensors. -/
def nextIn (x : Sensor) : List Sensor → Option Sensor
  | [] => none
  | y :: ys => if y = x then ys.head? else nextIn x ys

/-- The next sensor of a route after `x`, absent at the last. -/
def Route.next (r : Route) (x : Sensor) : Option Sensor := nextIn x r.sensors

/-- The zone that ends at a sensor (R73). -/
def zoneTo : Sensor → Nat
  | .s0 => 0 | .s1 => 0 | .s2 => 1 | .s3p => 2 | .s3 => 3 | .s4 => 4 | .s5a => 5 | .s5b => 6

/-- The zone of compiler X's leg. -/
def zone5Of : CompilerId → Nat
  | .a => 5 | .b => 6

/-- The zone whose speed gives a sensor's passage, by the route in force (R51). -/
def zoneAfter (r : Route) : Sensor → Nat
  | .s0 => 0
  | .s1 => 1
  | .s2 => match r with
    | .to _ => 3
    | _ => 2
  | .s3 => 4
  | .s4 => match r with
    | .to x => (zone5Of x)
    | _ => 5
  | .s3p => 2
  | .s5a => 5
  | .s5b => 6

/-- The length the part uses for a record's passage: 432 mm for a STRAY (R51). -/
def PathRec.passLength (r : PathRec) : Nat :=
  if r.kind = .stray then Config.strayLength else (r.sheet.map (·.length)).getD Config.strayLength

/-- The passage of a record at a sensor (R51). -/
def passage (s : State) (r : PathRec) (x : Sensor) : Nat :=
  ceilDiv (r.passLength * 10000) (s.zoneSpeed (zoneAfter r.route x))

/-- The clear deadline of a record at a sensor whose lead time is `t`: t + passage + T_jam (R55). -/
def clearDeadlineAt (s : State) (r : PathRec) (x : Sensor) (t : Tick) : Deadline :=
  { at_ := after t (passage s r x + s.tJam), sensor := x }

/-- The first sensor of the record's route whose lead is seen and whose clear is absent (R55). -/
def PathRec.firstCovered (r : PathRec) : Option Sensor :=
  r.route.sensors.find? (fun x => (r.lead.get x).isSome && (r.clear.get x).isNone)

/-- The clear deadline a record should have by its covered sensors and their recorded lead times (R55). -/
def currentClearDl (s : State) (r : PathRec) : Option Deadline :=
  r.firstCovered.bind (fun x => (r.lead.get x).map (fun t => clearDeadlineAt s r x t))

/-- The lead deadline a lead event at sensor `x` sets: the event plus the travel to the next sensor of the route, absent at
the last sensor (R52). -/
def leadDeadlineFrom (s : State) (r : PathRec) (x : Sensor) : Option Deadline :=
  (r.route.next x).map (fun y => { at_ := after s.now (s.travel (zoneTo y)), sensor := y })

/-- The measured length of a sheet with an S0 dwell from `lead` to `clear`, in whole mm, rounded down (R44, R56). -/
def measuredLength (s : State) (lead clear : Tick) : Nat :=
  (clear - lead).toInt.toNat * s.zoneSpeed 0 / 10000

/-- Strokes of a pattern (R58). -/
def Pattern.strokes : Pattern → Nat
  | .none => 0 | .corner => 1 | .edge2 => 2

/-! ## Shuttle timing (R61, R62) -/

/-- A move between the dock and level `k`. -/
def moveTicks (s : State) (k : Nat) : Nat := s.tBase + k * s.tLevel

/-- The estimate of a move from one level to another: T_base plus T_level for each level between (R61). -/
def legTicks (s : State) (k k' : Nat) : Nat := s.tBase + ((k - k') + (k' - k)) * s.tLevel

/-- A trip to level `k` (R61). -/
def tripTicks (s : State) (k : Nat) : Nat := 2 * moveTicks s k + s.tDrop

/-- The level of a bin (R134). -/
def binLevel (b : Fin 24) : Nat := b.val % 12 + 1

/-- The level of a target (R134). -/
def Target.level : Target → Nat
  | .bin b => binLevel b
  | .shelf => Config.shelfLevel

/-- The tick at which the shuttle is expected at the dock: "now" while DOCKED (R58, R62). -/
def State.shuttleFree (s : State) : Tick :=
  if s.shuttle.state = .docked then s.now else s.shuttle.free.getD s.now

/-! ## Compiler free estimates (R58) -/

/-- The record of a set's last page on its route to compiler X: CONFIRMED, route X, page pages-in-set (R85). -/
def lastPageRec (s : State) (x : CompilerId) (q : SetRec) : Option PathRec :=
  s.tracker.path.find? (fun r =>
    r.kind == .confirmed && r.route == .to x && r.sheet.any (fun sh => sh.key == q.key && sh.page == q.pages))

/-- The most recent actual lead time of a record and the sensor it was at (R58). -/
def PathRec.lastLead (r : PathRec) : Option (Sensor × Tick) :=
  (r.route.sensors.reverse).findSome? (fun x => (r.lead.get x).map (fun t => (x, t)))

/-- The travels of the zones that remain on a route after sensor `x`. -/
def remainingTravel (s : State) (r : Route) (x : Sensor) : Nat :=
  (((r.sensors.dropWhile (fun y => y != x)).drop 1).map (fun y => s.travel (zoneTo y))).sum

/-- E_last for a last page still in the path: its S5X lead time, or that lead projected from its most recent lead, plus
its passage at the Z5X speed (R58). -/
def landingEstimate (s : State) (x : CompilerId) (r : PathRec) : Tick :=
  let lead :=
    match r.lead.get (s5Of x) with
    | some t => t
    | none =>
      match r.lastLead with
      | some (y, t) => after t (remainingTravel s r.route y)
      | none => s.now
  after lead (passage s r (s5Of x))

/-- E_last (R58): the landing time of the current set's last page, known or expected. -/
def eLast (s : State) (x : CompilerId) (q : SetRec) : Tick :=
  if (s.comp x).count = q.pages then (s.comp x).lastLanding
  else
    match lastPageRec s x q with
    | some r => landingEstimate s x r
    | none => s.now

/-- The strokes of the pattern of a run. -/
def State.runStrokes (s : State) (r : Fin 16) : Nat := ((s.getRun r).map (fun q => q.pattern.strokes)).getD 0

/-- close_end (R58). Retry strokes made before a FRONT closing restarted the jog still extend it: R58 does not say whether
"since" is the close's start or the jog's, and the model counts from the close's start (DESIGN CHOICE, log 46). -/
def closeEndEstimate (c : Compiler) : Tick :=
  let strokes := (c.close.map (fun p => p.planned + p.retries)).getD 0
  after c.jogStart (c.tJog + c.tStaple * strokes)

/-- F(X), the tick at which compiler X is expected free, for an available X (R58). -/
def freeEstimate (s : State) (x : CompilerId) : Tick :=
  let c := s.comp x
  match c.state with
  | .gathering =>
    match c.current.bind s.getSet with
    | some q => after (eLast s x q) (c.tSettle + c.tJog + s.runStrokes q.key.run * c.tStaple + c.tTransfer)
    | none => s.now
  | .closing => after (closeEndEstimate c) c.tTransfer
  | .ready => after (laterOf s.now s.shuttleFree) c.tTransfer
  | .transfer => after c.transferStart c.tTransfer
  | _ => s.now

/-- A5(X), the predicted arrival of a page with S0 lead time `lead` (R60). -/
def predictedArrival (s : State) (x : CompilerId) (lead : Tick) : Tick :=
  after lead (s.travel 0 + s.travel 1 + s.travel 3 + s.travel 4 + s.travel (zone5Of x))

/-- The hold h: F(X) - A5(X) as a signed difference, 0 if negative (R60). -/
def holdOf (f a5 : Tick) : Nat := (f - a5).toInt.toNat

/-- The gap g from a hold: pitches rounded up, less 3, clamped to 0..15 (R60). -/
def gapOf (s : State) (hold : Nat) : Nat := min 15 (ceilDiv hold s.pitch - 3)

end Sys2Proof.Machine
end

