-- ==== Sys2Proof/Machine/Pace.lean ====
section
/-! DEFINITION. Availability of a compiler for a new set (R57) and the pace test (R88). -/

namespace Sys2Proof.Machine

/-- The set does not carry ABORTED and is neither DIVERTING nor RECOVERING. R57 and R91 name such a set's compiler as
unavailable; for a set whose last page is still CONFIRMED on its route, or has landed, the last-page test of R57 and R85 alone
would say available. The model follows the naming (DEDUCED, log 18). -/
def SetRec.unbroken (q : SetRec) : Bool := !q.aborted && q.state != .diverting && q.state != .recovering

/-- The set gathered at X is unbroken, and its last page has landed, or is CONFIRMED on its route to X and not parked (R57,
R85, R91; log 18). -/
def lastPageComing (s : State) (x : CompilerId) (q : SetRec) : Bool :=
  q.unbroken && ((s.comp x).count == q.pages || (lastPageRec s x q).any (fun r => !r.parked))

/-- Compiler X is available for a new set, leaving out the require-staple condition (R57, R88). -/
def available (s : State) (x : CompilerId) : Bool :=
  let c := s.comp x
  !c.outPending && c.reserved.isNone &&
    match c.state with
    | .empty => true
    | .gathering => (c.current.bind s.getSet).any (lastPageComing s x)
    | .closing => true
    | .ready => !c.undeliverable && s.shuttle.state != .fault && !s.shuttle.suspended
    | .transfer => true
    | .clearWait => false
    | .out => false

/-- The require-staple condition of R57: X's stapler can make the strokes of the new set's run. -/
def canStaple (c : Compiler) (r : Run) : Bool :=
  !r.requireStaple || r.pattern.strokes == 0 || (!c.fault && decide (r.pattern.strokes ≤ c.staples))

/-- The three hold conditions as they stand (R88). -/
def paceConditions (s : State) : PaceConditions :=
  { noCompiler := !available s .a && !available s .b,
    purgeFull := s.trayFull,
    noTarget :=
      s.compA.state == .ready && s.compB.state == .ready && s.compA.undeliverable && s.compB.undeliverable }

/-- The pace test (R88), made at the events of R88's list (log 19). -/
def paceTest (s : State) : State :=
  let c := paceConditions s
  if c.any && !s.router.held then
    notify (.paceHold c) (modRouter (fun r => { r with held := true }) s)
  else if !c.any && s.router.held then
    notify .paceRelease (modRouter (fun r => { r with held := false }) s)
  else s

end Sys2Proof.Machine
end

