-- ==== Sys2Proof/Machine/Delivery.lean ====
section
/-! DEFINITION. Targets, offers, the arbiter and the grant (7.2, 7.3), bin claims, and the run table's checks that a bin or
set change brings about (R5 to R7, R135). -/

namespace Sys2Proof.Machine

/-! ## Targets (R124, R125) -/

/-- A bin takes a packet (R124). -/
def binTakes (s : State) (p : Packet) (b : Fin 24) : Bool :=
  let q := s.getBin b
  q.state == .owned && q.owner == some p.key.run && decide (q.height + p.thickness ≤ s.binCapacity b) &&
    decide (q.packets.length < Config.binPackets)

/-- The overflow shelf takes a packet (R124). -/
def shelfTakes (s : State) (p : Packet) : Bool :=
  !s.shelf.fullMark && decide (s.shelf.height + p.thickness ≤ s.shelfCapacity)

/-- A target takes a packet (R124). -/
def targetTakes (s : State) (p : Packet) : Target → Bool
  | .bin b => binTakes s p b
  | .shelf => shelfTakes s p

/-- A run's active bin. -/
def State.activeBin (s : State) (r : Fin 16) : Option (Fin 24) := (s.getRun r).bind (·.active)

/-- The active bin of the packet's run, when it takes the packet (step 1 of R125). -/
def activeTarget (s : State) (p : Packet) : Option Target :=
  ((s.activeBin p.key.run).filter (binTakes s p)).map .bin

/-- The bins in a fill order (R3). -/
def FillOrder.bins : FillOrder → List (Fin 24)
  | .ascending => allBins
  | .descending => allBins.reverse

/-- The first bin of a run's mask, in its fill order, that satisfies `p` (R3, R125). -/
def firstBin (r : Run) (p : Fin 24 → Bool) : Option (Fin 24) :=
  r.order.bins.find? (fun b => r.mask.getLsbD b.val && p b)

/-- A claim (R135): the bin becomes OWNED by the run, joins its owned bins and becomes its active bin. -/
def claim (r : Fin 16) (b : Fin 24) (s : State) : State :=
  modRun r (fun q => { q with owned := q.owned ++ [b], active := some b })
    (modBin b (fun q => { q with state := .owned, owner := some r }) s)

/-- The Bin Full notice of a bin as it stands (R125, R140). -/
def binFullNotice (s : State) (b : Fin 24) : NoticeBody :=
  let q := s.getBin b
  .binFull b q.owner q.height (s.binCapacity b) q.packets.length

/-- The first part of step 2 of R125: an OWNED active bin that does not take the packet becomes FULL. -/
def fillActive (p : Packet) (s : State) : State :=
  match s.activeBin p.key.run with
  | none => s
  | some b =>
    if (s.getBin b).state == .owned && !binTakes s p b then
      let s := modBin b (fun q => { q with state := .full }) s
      notify (binFullNotice s b) s
    else s

/-- The search of step 2 of R125: the first bin of the mask that is FREE, or OWNED by the run and not its active bin. -/
def spillBin (s : State) (r : Fin 16) (q : Run) : Option (Fin 24) :=
  firstBin q (fun b =>
    (s.getBin b).state == .free ||
      ((s.getBin b).state == .owned && (s.getBin b).owner == some r && q.active != some b))

/-- Step 2 of R125: spill and claim. -/
def spill (p : Packet) (s : State) : State :=
  let r := p.key.run
  let s := fillActive p s
  match s.getRun r with
  | none => s
  | some q =>
    match spillBin s r q with
    | none => s
    | some b =>
      if (s.getBin b).state == .free then claim r b s else modRun r (fun q => { q with active := some b }) s

/-- Target selection for one packet (R125). -/
def selectTarget (p : Packet) (s : State) : State × Option Target :=
  match activeTarget s p with
  | some t => (s, some t)
  | none =>
    let s := spill p s
    match activeTarget s p with
    | some t => (s, some t)
    | none => (s, if shelfTakes s p then some .shelf else none)

/-! ## Offers and the arbiter (R121 to R123) -/

/-- A grant to compiler X with a target (R123, R107). With the FRONT cover open the transfer starts suspended. -/
def grant (x : CompilerId) (t : Target) (s : State) : State :=
  let c := s.comp x
  let free := after s.now (c.tTransfer + tripTicks s t.level)
  let s := modShuttle (fun h =>
    { h with state := .loading, granted := some x, target := some t, level := 0, free := some free }) s
  let timer := if s.pins.front then none else some (after s.now (c.tTransfer + Config.timerMargin))
  let s := modComp x (fun c =>
    { c with state := .transfer, undeliverable := false, transfer := timer, transferStart := s.now }) s
  paceTest s

/-- An offer whose packet found no target (R121): marked undeliverable; the first such finding sends Delivery Blocked. -/
def markUndeliverable (x : CompilerId) (p : Packet) (s : State) : State :=
  let was := (s.comp x).undeliverable
  let sent := (s.comp x).blockedSent
  let s := modComp x (fun c => { c with undeliverable := true, blockedSent := true }) s
  let s := if sent then s else notify (.deliveryBlocked (some x) none p (s.activeBin p.key.run)) s
  if was then s else paceTest s

/-- A standing offer: a READY compiler with its packet (R121). -/
def State.offer (s : State) (x : CompilerId) : Option (CompilerId × Packet) :=
  if (s.comp x).state = .ready then (s.comp x).packet.map (fun p => (x, p)) else none

/-- The sequence `a` is before `b`: the signed 16-bit difference is negative (R21). -/
def seqBefore (a b : PacketSeq) : Bool := (a - b).msb

/-- The standing offers in order of packet sequence, the earlier first (R122). -/
def State.offers (s : State) : List (CompilerId × Packet) :=
  match s.offer .a, s.offer .b with
  | some p, some q => if seqBefore q.2.seq p.2.seq then [q, p] else [p, q]
  | some p, none => [p]
  | none, some q => [q]
  | none, none => []

/-- The arbiter takes the offers in turn: the first with a target is granted, the others examined are marked (R122). -/
def takeOffers : List (CompilerId × Packet) → State → State
  | [], s => s
  | (x, p) :: rest, s =>
    match selectTarget p s with
    | (s', some t) => grant x t s'
    | (s', none) => takeOffers rest (markUndeliverable x p s')

/-- An arbitration (R122). -/
def arbitrate (s : State) : State :=
  if s.shuttle.state = .docked ∧ s.shuttle.suspended = false ∧ s.shuttle.packet = none then takeOffers s.offers s else s

/-- The shuttle starts a retarget move from its level to a new target (R127, R61, R62). -/
def startRetarget (t : Target) (s : State) : State :=
  let k := s.shuttle.level
  let est := legTicks s k t.level
  modShuttle (fun h =>
    { h with
      state := .moving, target := some t, waiting := false,
      move := some { leg := .retarget, origin := k, dest := t.level,
                     timeout := some (after s.now (est + s.shuttleMargin)) },
      free := some (after s.now (est + s.tDrop + moveTicks s t.level)) }) s

/-- A waiting shuttle runs target selection again (R127); while the TOWER cover is open it waits for the closing
(DEDUCED, log 20). -/
def retryWaiting (s : State) : State :=
  if s.shuttle.state = .moving ∧ s.shuttle.waiting = true ∧ s.shuttle.suspended = false then
    match s.shuttle.packet with
    | none => s
    | some p =>
      match selectTarget p s with
      | (s', some t) => startRetarget t s'
      | (s', none) => s'
  else s

/-- An event that can give a packet a target: an arbitration (R122) and a waiting shuttle's new try (R127). -/
def targetEvent (s : State) : State := retryWaiting (arbitrate s)

/-! ## Release of bins and the end of runs (R5 to R7, R135) -/

/-- A run is DONE or ABORTED. -/
def Run.finished (r : Run) : Bool := r.state == .done || r.state == .aborted

/-- The removal check of R7: the record goes when the run is finished, owns no bin and has no set record. -/
def removeRunTest (r : Fin 16) (s : State) : State :=
  if s.runHas r (fun q => q.finished && q.owned.isEmpty) && !s.runHasSets r then setRun r none s else s

/-- A release (R135): the owner is cleared, the bin leaves its run's owned bins, and the active bin becomes absent if it
was this bin. -/
def disown (b : Fin 24) (s : State) : State :=
  match (s.getBin b).owner with
  | none => s
  | some r =>
    modRun r (fun q =>
        { q with owned := q.owned.filter (fun c => c != b), active := if q.active = some b then none else q.active })
      (modBin b (fun q => { q with owner := none }) s)

/-- A release whose bin takes the state `st` (R135), with the removal check of R7 and, when it became FREE, an
arbitration. -/
def releaseBin (b : Fin 24) (st : BinState) (s : State) : State :=
  let r := (s.getBin b).owner
  let s := modBin b (fun q => { q with state := st }) (disown b s)
  let s := match r with
    | none => s
    | some r => removeRunTest r s
  if st = .free then targetEvent s else s

/-- A bin that a finished run gives back: OWNED or FULL with an empty list (R6). -/
def Bin.returnable (b : Bin) : Bool := (b.state == .owned || b.state == .full) && b.packets.isEmpty

/-- Releases each returnable bin of a list. -/
def releaseEach : List (Fin 24) → State → State
  | [], s => s
  | b :: bs, s => releaseEach bs (if (s.getBin b).returnable then releaseBin b .free s else s)

/-- The bin release check of R6 and then the removal check of R7. -/
def finishChecks (r : Fin 16) (s : State) : State :=
  let s :=
    if s.runHas r Run.finished && !s.runHasSets r then releaseEach (((s.getRun r).map (·.owned)).getD []) s else s
  removeRunTest r s

/-- The completion test of R5. -/
def completionTest (r : Fin 16) (s : State) : State :=
  match s.getRun r with
  | none => s
  | some q =>
    if q.state = .opened ∧ q.delivered + q.aborted = q.declared then
      notify (.runDone r q.delivered q.aborted) (modRun r (fun q => { q with state := .done }) s)
    else s

/-- Counting a set of a run as finished: the done map's flag is set, the count rises, and the checks of R5, R6 and R7
follow. -/
def countFinished (k : SetKey) (count : Run → Run) (s : State) : State :=
  let s := modRun k.run (fun q => { count q with done := q.done ||| doneBit k.set }) s
  finishChecks k.run (completionTest k.run s)

end Sys2Proof.Machine
end

