-- ==== Sys2Proof/Machine/Sets.lean ====
section
/-! DEFINITION. What happens to a set and its compiler together: the COMPILE latch (R119), the close condition (R101), the
release from the buffer (R95), promotion and release of a compiler (R99), removal of set records (R16, R17), diversion and
drain (R19, R87, R92), and the retirement of a delivered set (R13). -/

namespace Sys2Proof.Machine

/-! ## Stapler counts (R109, R111) -/

/-- The Staple Low and Staple Out tests of a change of the count from `n` under threshold `th` to the compiler's count and
threshold as they now stand (R111). -/
def supplyTests (x : CompilerId) (n th : Nat) (s : State) : State :=
  let c := s.comp x
  if decide (0 < n) && c.staples == 0 then notify (.stapleOut x c.staples c.threshold) s
  else if decide (th < n) && decide (1 ≤ c.staples) && decide (c.staples ≤ c.threshold) then
    notify (.stapleLow x c.staples c.threshold) s
  else s

/-- The COMPILE latch of a compiler (R119): the staged values are taken, the count is clamped to the new capacity, and the
Staple Low test is made against the new threshold. -/
def compileLatch (x : CompilerId) (s : State) : State :=
  let c := s.comp x
  supplyTests x c.staples c.threshold
    (modComp x (fun c => { c with latched := s.staged.compile, staples := min c.staples (s.staged.compile.getD 5 0) }) s)

/-- A compiler that would become EMPTY: OUT if OUT-pending is set, without a latch, else EMPTY with the COMPILE latch
(R117, R119). -/
def becomeEmpty (x : CompilerId) (s : State) : State :=
  if (s.comp x).outPending then modComp x (fun c => { c with state := .out, outPending := false }) s
  else compileLatch x (modComp x (fun c => { c with state := .empty }) s)

/-! ## The close condition (R101) -/

/-- The close condition of a current set with record `q`, the stack as the compiler holds it (R101). -/
def closeDue (s : State) (x : CompilerId) (q : SetRec) : Bool :=
  (s.comp x).count == q.pages ||
    (q.aborted && q.state != .diverting && decide (0 < (s.comp x).count) && !s.hasConfirmed q.key)

/-- The close condition test (R101): with FRONT closed the settle timer starts. -/
def closeTest (x : CompilerId) (s : State) : State :=
  let c := s.comp x
  if c.state == .gathering && c.settle.isNone && !s.pins.front && (c.current.bind s.getSet).any (closeDue s x) then
    modComp x (fun c => { c with settle := some (after s.now c.tSettle) }) s
  else s

/-- The close condition test of the compiler whose current set is `k` (R101). -/
def closeTestOf (k : SetKey) (s : State) : State :=
  if s.compA.current = some k then closeTest .a s
  else if s.compB.current = some k then closeTest .b s
  else s

/-! ## Release from the buffer (R95, R96) -/

/-- The record's compiler has its set as current set (R93, R95). -/
def compilerReady (s : State) (r : PathRec) : Bool :=
  match r.route with
  | .to x => r.key.isSome && (s.comp x).current == r.key
  | _ => false

/-- A record at its release (R95, R52, R55): unparked, its S4 lead deadline T_gate after the release, and its S3 clear
deadline when its S3 clear is absent. -/
def releasedRec (s : State) (r : PathRec) : PathRec :=
  { r with
    parked := false,
    leadDl := some { at_ := after s.now Config.tGate, sensor := .s4 },
    clearDl := if r.clear.s3.isNone then some (clearDeadlineAt s r .s3 s.now) else none }

/-- The release test (R95): the head of the buffer goes when its compiler's current set is its set and the spacing timer
does not run; the timer then starts (R96). The release of a last page is not on R88's list, so no pace test follows it by itself
(DEDUCED, log 19). -/
def releaseTest (s : State) : State :=
  match s.tracker.path.findIdx? (·.parked) with
  | none => s
  | some i =>
    if s.router.spacing.isNone && (s.tracker.path[i]?).any (compilerReady s) then
      modRouter (fun r => { r with spacing := some (after s.now s.tRelease), gate := .pass }) (modRec i (releasedRec s) s)
    else s

/-- A compiler's current set has changed: the release test and the pace test follow (R99). -/
def afterSetChange (s : State) : State := paceTest (releaseTest s)

/-! ## Promotion and release of a compiler (R99, R108) -/

/-- Compiler X has lost its current set with an empty stack: its reserved set, if any, becomes current and gathers, else
the compiler becomes EMPTY or OUT (R99, R108, R117). -/
def promoteOrEmpty (x : CompilerId) (s : State) : State :=
  let s := modComp x (fun c => { c with current := none, settle := none, count := 0, thickness := 0, tags := [] }) s
  match (s.comp x).reserved with
  | some k =>
    let s := modComp x (fun c => { c with state := .gathering, current := some k, reserved := none }) s
    closeTest x (modSet k (fun q => { q with assigned := some (x, .current) }) s)
  | none => becomeEmpty x s

/-- A set record is removed; a compiler it still had is released from it (R17, R99). -/
def dropSet (k : SetKey) (s : State) : State :=
  let assigned := (s.getSet k).bind (·.assigned)
  let s := clearSet k s
  match assigned with
  | none => s
  | some (x, .reserved) => paceTest (modComp x (fun c => { c with reserved := none }) s)
  | some (x, .current) => afterSetChange (promoteOrEmpty x s)

/-- Some packet of the set is closing, waiting, in transfer or on the shuttle (R16). -/
def State.hasPacket (s : State) (k : SetKey) : Bool :=
  [s.compA.packet, s.compB.packet, s.shuttle.packet].any (fun o => o.any (fun p => p.key == k))

/-- The removal test of R16. A compiler the set still has is released (R17) before the set is counted (R5, R6, R7): no rule
orders the two (DESIGN CHOICE, log 55). -/
def removalTest (k : SetKey) (s : State) : State :=
  match s.getSet k with
  | none => s
  | some q =>
    if q.aborted && !s.hasConfirmed k && q.inCompiler == 0 && !s.hasPacket k then
      countFinished k (fun r => { r with aborted := r.aborted + 1 }) (dropSet k s)
    else s

/-- Delivery retires a set (R13). -/
def retireSet (k : SetKey) (s : State) : State :=
  countFinished k (fun r => { r with delivered := r.delivered + 1 }) (dropSet k s)

/-! ## Diversion and drain (R19, R87, R91, R92) -/

/-- The set is DIVERTING. -/
def State.isDiverting (s : State) (k : SetKey) : Bool := (s.getSet k).any (fun q => q.state == .diverting)

/-- A DIVERTING set has drained: no page of it before S2 and no diverted page on the purge branch (R92). -/
def drained (s : State) (k : SetKey) : Bool :=
  !s.queue.any (fun e => e.sheet.key == k && !e.void) &&
    !s.tracker.path.any (fun r =>
      r.of k && (((r.kind == .tentative || r.kind == .confirmed) && r.lead.s2.isNone) ||
        (r.kind == .confirmed && r.route == .purge)))

/-- Drain end (R19, R92): RECOVERING from the divert page with a Set Diverted notice, or FED with the removal test for a
set that carries ABORTED; the close condition test of its compiler follows (R101). -/
def drainEnd (q : SetRec) (s : State) : State :=
  let page := q.divertPage.getD 1
  if q.aborted then
    closeTestOf q.key (removalTest q.key (modSet q.key (fun q => { q with state := .fed, divertCause := none }) s))
  else
    let s := modSet q.key (fun q =>
      { q with state := .recovering, next := page, announced := page - 1, divertCause := none }) s
    let s := notify (.setDiverted q.key page (q.divertCause.getD .noCompiler) (q.assigned.map (·.1)) q.inCompiler) s
    closeTestOf q.key s

/-- The drain test of a set (R92). -/
def drainTest (k : SetKey) (s : State) : State :=
  match s.getSet k with
  | none => s
  | some q => if q.state = .diverting ∧ drained s k = true then drainEnd q s else s

/-- The Router reports a set's first diverted page (R19, R91): an ANNOUNCING or FED set becomes DIVERTING. -/
def divertSet (k : SetKey) (page : Nat) (cause : DivertCause) (s : State) : State :=
  modSet k (fun q =>
    if q.state = .announcing ∨ q.state = .fed then
      { q with state := .diverting, divertPage := some page, divertCause := some cause }
    else q) s

/-- Compiler X's reservation of set `k` is given up (R87): the assignment is cleared in both records, and an ANNOUNCING or
FED set is diverted from page 1. -/
def giveUp (x : CompilerId) (k : SetKey) (s : State) : State :=
  let s := modComp x (fun c => { c with reserved := none }) s
  divertSet k 1 .noCompiler (modSet k (fun q => { q with assigned := none }) s)

/-- The Router cancels compiler X's reservation of set `k` (R87), with the pace test its change asks for (R88). `drain` says
whether the drain test is made: none is made inside a halt (R92, log 28). The pace test comes after it, so a Pace notice
after a Set Diverted notice (DESIGN CHOICE, log 58). -/
def cancelReservation (drain : Bool) (x : CompilerId) (k : SetKey) (s : State) : State :=
  let s := giveUp x k s
  paceTest (if drain then drainTest k s else s)

/-- The cancellation test of compiler X (R87). -/
def cancelTest (drain : Bool) (x : CompilerId) (s : State) : State :=
  let c := s.comp x
  let stuck := (c.current.bind s.getSet).any (fun q => q.state == .diverting || q.state == .recovering)
  match c.reserved with
  | some k => if stuck then cancelReservation drain x k s else s
  | none => s

/-! ## A lost stack (R114) -/

/-- Compiler X's stack is declared lost (R114). -/
def stackLost (x : CompilerId) (s : State) : State :=
  let cur := (s.comp x).current
  let res := (s.comp x).reserved
  let s := modComp x (fun c =>
    { c with settle := none, close := none, transfer := none, packet := none, count := 0, thickness := 0, tags := [],
             current := none, undeliverable := false, blockedSent := false }) s
  let s := match cur with
    | none => s
    | some k => modSet k (fun q => { q with assigned := none }) s
  let s := match res with
    | none => s
    | some k => giveUp x k s
  let s := modComp x (fun c => { c with state := .clearWait, cycleMark := s.pins.front }) s
  releaseTest (paceTest s)

end Sys2Proof.Machine
end

