-- ==== Sys2Proof/Machine/Halt.lean ====
section
/-! DEFINITION. Halts and recovery (4.2, 08): entering HALT (R67), taking stock (R143 to R150), the JAM and leaving tests (R68,
R70, R151), jams (R80) and the purge route test (R83). -/

namespace Sys2Proof.Machine

/-! ## Taking stock (R143 to R150) -/

/-- What a halt hands to the Recovery Unit: the path table oldest first and the queue head first (R143). -/
structure Handed where
  path : List PathRec
  queue : List Entry
  halt : HaltRecord
  deriving DecidableEq, Repr

/-- The compiler holds a stack that a halt can declare lost: GATHERING, CLOSING or READY (R143, R144). -/
def Compiler.holdsStack (c : Compiler) : Bool := c.state == .gathering || c.state == .closing || c.state == .ready

/-- The jam sensor is the compiler's S5 sensor (R144). -/
def HaltRecord.jamAt (h : HaltRecord) (x : CompilerId) : Bool := h.jam.any (fun j => j.2 == s5Of x)

/-- The run of the compiler's current set has the policy WHOLE_SET (R144). -/
def wholeSetAt (s : State) (x : CompilerId) : Bool :=
  (s.comp x).current.any (fun k => s.runHas k.run (fun r => r.policy == .wholeSet))

/-- The halt has losses (R143). -/
def hasLosses (s : State) (h : Handed) : Bool :=
  !h.path.isEmpty || !h.queue.isEmpty || (h.halt.jamAt .a && s.compA.holdsStack) || (h.halt.jamAt .b && s.compB.holdsStack)

/-- The Recovery Unit names compiler X (R144 step 1). -/
def stackNamed (s : State) (h : Handed) (x : CompilerId) : Bool :=
  (s.comp x).holdsStack && (h.halt.jamAt x || wholeSetAt s x)

/-- The sets whose stacks or packets are declared lost (R145). -/
def lostSets (s : State) (h : Handed) : List SetKey :=
  (if stackNamed s h .a then s.compA.current.toList else []) ++ (if stackNamed s h .b then s.compB.current.toList else [])

/-- A TENTATIVE or CONFIRMED record of the set was received (R145). -/
def Handed.inPath (h : Handed) (k : SetKey) : Bool :=
  h.path.any (fun r => r.of k && (r.kind == .tentative || r.kind == .confirmed))

/-- A queue entry of the set that is not VOID was received (R145). -/
def Handed.inQueue (h : Handed) (k : SetKey) : Bool := h.queue.any (fun e => e.sheet.key == k && !e.void)

/-- The cause of an affected set, absent for a set that is not affected (R145). A RECOVERING set not yet reopened whose kept stack
is declared lost is affected by R145's third bullet, which R157's sentence leaves out (DEDUCED, log 51). -/
def affectedCause (h : Handed) (lost : List SetKey) (k : SetKey) : Option RecoveryCause :=
  if lost.contains k then some .compilerLoss
  else if h.inPath k then some .pathLoss
  else if h.inQueue k then some .discarded
  else none

/-- The sheets and the thickness of the set's kept stack: 0 when no compiler has it as its current set (R146, R148). -/
def keptStack (s : State) (k : SetKey) : Nat × Nat :=
  if s.compA.current = some k then (s.compA.count, s.compA.thickness)
  else if s.compB.current = some k then (s.compB.count, s.compB.thickness)
  else (0, 0)

/-- The entry of an affected set that does not carry ABORTED (R146); the first page is one more than the kept stack
(log 40). -/
def recoveryEntry (s : State) (h : Handed) (lost : List SetKey) (q : SetRec) : Option RecoveryEntry :=
  if q.aborted then none
  else
    (affectedCause h lost q.key).map (fun c =>
      { key := q.key, first := (keptStack s q.key).1 + 1, last := q.pages, cause := c })

/-- What a listed set becomes (R20, R148). -/
def listedSet (s : State) (e : RecoveryEntry) (q : SetRec) : SetRec :=
  let kept := keptStack s q.key
  { q with
    state := .recovering, next := e.first, announced := e.first - 1, confirmed := kept.1, inCompiler := kept.1,
    thickness := kept.2, divertPage := none, divertCause := none,
    reprinted := if e.first = 1 then false else q.reprinted }

/-- The records of the listed sets are changed (R144 step 3, R148). -/
def changeListed (es : List RecoveryEntry) (s : State) : State :=
  es.foldl (fun s e => modSet e.key (listedSet s e) s) s

/-- An affected set that carries ABORTED (R150): FED with its kept stack, then the removal and close condition tests. -/
def abortedAtHalt (k : SetKey) (s : State) : State :=
  let kept := (keptStack s k).1
  closeTestOf k (removalTest k (modSet k (fun q =>
    { q with state := .fed, confirmed := kept, inCompiler := kept, divertCause := none }) s))

/-- Each named compiler carries out the loss of its stack (R144 step 1, R114). -/
def loseNamed (h : Handed) (s : State) : State :=
  let a := stackNamed s h .a
  let b := stackNamed s h .b
  let s := if a then stackLost .a s else s
  if b then stackLost .b s else s

/-- The stock-taking of a halt with losses (R144), ended by the close condition tests of R149 and the pace test its changes
ask for (R88). Several affected ABORTED sets are handled in set-table slot order, seen in the order of their Run Done notices
and bin releases: R144 and R150 give none (DESIGN CHOICE, log 50). -/
def buildList (h : Handed) (s : State) : State :=
  let lost := lostSets s h
  let s := loseNamed h s
  let es := s.setRecs.filterMap (recoveryEntry s h lost)
  let abortedSets := s.setRecs.filter (fun q => q.aborted && (affectedCause h lost q.key).isSome)
  let s := cancelTest false .b (cancelTest false .a (changeListed es s))
  let s := abortedSets.foldl (fun s q => abortedAtHalt q.key s) s
  let s := { s with recovery := some { entries := es, halt := h.halt, overflow := false } }
  paceTest (closeTest .b (closeTest .a s))

/-- The Recovery Unit takes stock (R143): only a halt with losses builds a list. -/
def takeStock (h : Handed) (s : State) : State := if hasLosses s h then buildList h s else s

/-! ## Entering HALT (R67) -/

/-- The transport, the path table, the queue and the timers that stop at a halt (steps 1 to 4 of R67, R47, R97). -/
def stopTransport (h : HaltRecord) (s : State) : State :=
  { s with
    tracker :=
      { s.tracker with
        transport := .halt, spinup := none, idle := none, path := [], causes := s.tracker.causes.add h.cause,
        haltRecord := some h },
    router := { s.router with spacing := none },
    queue := [], window := none, guard := none }

/-- A halt cause (R67): outside HALT it enters HALT and the Recovery Unit takes stock, but not from RECOVER (R143); in HALT
it only joins the cause set. Then its notice is sent. -/
def halt (cause : HaltCause) (jam : Option (JamKind × Sensor)) (b : NoticeBody) (s : State) : State :=
  if s.tracker.transport = .halt then notify b (modTracker (fun t => { t with causes := t.causes.add cause }) s)
  else
    let h : HaltRecord := { cause := cause, jam := jam, time := s.now }
    let handed : Handed := { path := s.tracker.path, queue := s.queue, halt := h }
    let recover := s.tracker.transport == .recover
    let s := stopTransport h s
    notify b (if recover then s else takeStock handed s)

/-- A jam that names no record: UNEXPECTED or OVERFILL (R80). -/
def jamAtSensor (k : JamKind) (x : Sensor) (s : State) : State :=
  halt .jam (some (k, x)) (.jam k x 0 none none s.now) s

/-- A jam that names a record, with the deadline involved (R80). -/
def jamOfRecord (k : JamKind) (x : Sensor) (r : PathRec) (d : Option Tick) (s : State) : State :=
  halt .jam (some (k, x)) (.jam k x r.tag r.sheet d s.now) s

/-- The test of a PURGE route against the purge tray (R83). -/
def purgeRouteTest (s : State) : State :=
  if s.trayFull then halt .purgeFull none (.purgeFull s.tracker.purgeCount s.purgeCapacity true) s else s

/-! ## Leaving HALT (R68, R70, R151) -/

/-- The JAM test (R68): JAM is removed when all eight path sensors read uncovered. -/
def jamTest (s : State) : State :=
  if s.tracker.transport = .halt ∧ uncovered s.tracker.readings = true then
    modTracker (fun t => { t with causes := { t.causes with jam := false } }) s
  else s

/-- Each compiler in CLEAR_WAIT reads paper absent (R70). -/
def clearWaitEmpty (s : State) : Bool :=
  (s.compA.state != .clearWait || !s.compA.paper) && (s.compB.state != .clearWait || !s.compB.paper)

/-- The transport leaves HALT (R70, R151): RECOVER with a Recovery Ready notice for a list with entries, else OFF, where an
empty list becomes absent. -/
def leaveHalt (s : State) : State :=
  match s.recovery.filter (fun l => !l.entries.isEmpty) with
  | some l =>
    notify (.recoveryReady l.entries.length l.halt l.overflow) (modTracker (fun t => { t with transport := .recover }) s)
  | none => { modTracker (fun t => { t with transport := .off }) s with recovery := none }

/-- The leaving test of R70. -/
def leaveTest (s : State) : State :=
  if s.tracker.transport == .halt && s.tracker.causes.isEmpty && uncovered s.tracker.readings && clearWaitEmpty s then
    leaveHalt s
  else s

end Sys2Proof.Machine
end

