-- ==== Sys2Proof/Machine/Params.lean ====
section
/-! DEFINITION. The Parameter Store and the Profile Loader (10): the parameter list (R170), staging, the PATH and MEDIA latch
with its fixes (R173, R174), the DELIVERY latch (R140), and the judging of the profile image (R175). -/

namespace Sys2Proof.Machine

/-! ## The parameter list (R170) -/

inductive Group where
  | path | media | compile | delivery | link
  deriving DecidableEq, Repr

/-- Group codes, which are also the section ids of the image (11.1, 10.5). -/
def Group.code : Group → Nat
  | .path => 1 | .media => 2 | .compile => 3 | .delivery => 4 | .link => 5

/-- The groups in section-id order. -/
def allGroups : List Group := [.path, .media, .compile, .delivery, .link]

/-- A parameter: its group and its place in the group's list of values. -/
structure Param where
  group : Group
  index : Nat
  deriving DecidableEq, Repr

/-- The parameter an id names (R170). -/
def paramOf (id : Nat) : Option Param :=
  if 1 ≤ id ∧ id ≤ 25 then some ⟨.path, id - 1⟩
  else if 32 ≤ id ∧ id ≤ 39 then some ⟨.media, id - 32⟩
  else if 48 ≤ id ∧ id ≤ 54 then some ⟨.compile, id - 48⟩
  else if 64 ≤ id ∧ id ≤ 68 then some ⟨.delivery, id - 64⟩
  else if 72 ≤ id ∧ id ≤ 95 then some ⟨.delivery, id - 67⟩
  else if 112 ≤ id ∧ id ≤ 113 then some ⟨.link, id - 112⟩
  else none

/-- The range ends of a group's parameters, in the order of their ids (R170). -/
def Group.ranges : Group → List (Nat × Nat)
  | .path =>
    List.replicate 7 (20, 800) ++ List.replicate 7 (100, 1600) ++
      [(10, 500), (20, 2000), (10, 200), (500, 30000), (100, 5000), (1, 30), (200, 5000), (1000, 60000), (300, 6000),
       (50, 2000), (20, 500)]
  | .media => List.replicate 8 (50, 400)
  | .compile => [(20, 1000), (50, 1000), (100, 1000), (100, 2000), (1000, 6000), (1000, 10000), (0, 1000)]
  | .delivery =>
    [(100, 1000), (20, 300), (100, 1000), (200, 5000), (10000, 120000)] ++ List.replicate 24 (5000, 120000)
  | .link => [(0, 0xFFFF), (0, 0x7F)]

/-- The defaults of a group's parameters, in the order of their ids (R170). -/
def Group.defaults : Group → List Nat
  | .path => Config.pathDefaults
  | .media => Config.mediaDefaults
  | .compile => Config.compileDefaults
  | .delivery => Config.deliveryDefaults
  | .link => [0xFFFF, 0x7F]

def Param.low (p : Param) : Nat := (p.group.ranges.getD p.index (0, 0)).1
def Param.high (p : Param) : Nat := (p.group.ranges.getD p.index (0, 0)).2
def Param.default (p : Param) : Nat := p.group.defaults.getD p.index 0

/-- Step 3 of R171: the nearest end of the range replaces a value outside it. -/
def Param.clamp (p : Param) (v : Nat) : Nat := if v < p.low then p.low else if p.high < v then p.high else v

/-! ## The notice mask under its two ids (R170, R164) -/

/-- The two fields of a mask: positions 1 to 16 under id 112, positions 17 to 23 under id 113. -/
def maskFields (m : BitVec 23) : List Nat := [m.toNat % 65536, m.toNat / 65536]

/-- The mask of two fields. -/
def maskOfFields (vs : List Nat) : BitVec 23 := BitVec.ofNat 23 (vs.getD 0 0 % 65536 + 65536 * vs.getD 1 0)

/-! ## Staged and latched values -/

/-- The staged values of a group, in the order of their ids. -/
def Staged.values (t : Staged) : Group → List Nat
  | .path => t.path
  | .media => t.media
  | .compile => t.compile
  | .delivery => t.delivery
  | .link => maskFields t.mask

/-- The staged values with a group's list replaced. -/
def Staged.withValues (t : Staged) (g : Group) (vs : List Nat) : Staged :=
  match g with
  | .path => { t with path := vs }
  | .media => { t with media := vs }
  | .compile => { t with compile := vs }
  | .delivery => { t with delivery := vs }
  | .link => { t with mask := maskOfFields vs }

/-- The staged value of a parameter. -/
def State.stagedValue (s : State) (p : Param) : Nat := (s.staged.values p.group).getD p.index 0

/-- The latched value of a parameter at a compiler; outside COMPILE both compilers show the one latched value (R172). -/
def State.latchedValue (s : State) (p : Param) (x : CompilerId) : Nat :=
  match p.group with
  | .path => s.latched.path.getD p.index 0
  | .media => s.latched.media.getD p.index 0
  | .compile => (s.comp x).latched.getD p.index 0
  | .delivery => s.latched.delivery.getD p.index 0
  | .link => (maskFields s.latched.mask).getD p.index 0

/-- Stages one value (R171). -/
def stage (p : Param) (v : Nat) (s : State) : State :=
  { s with staged := s.staged.withValues p.group ((s.staged.values p.group).set p.index v) }

/-! ## The PATH and MEDIA latch (R173, R174) -/

/-- A fix of R174: the parameter at place `i` of PATH takes the value `v`, staged and latched, and a Parameter Adjusted
notice names the parameter it was weighed against (0 none). -/
def raise (i v against : Nat) (s : State) : State :=
  let s' :=
    { s with
      staged := { s.staged with path := s.staged.path.set i v },
      latched := { s.latched with path := s.latched.path.set i v } }
  notify (.parameterAdjusted (i + 1) (s.staged.path.getD i 0) v against) s'

/-- The first fix: Z1 plus Z2 is at least 440 mm (R174). -/
def fixZ2 (s : State) : State :=
  if s.path 0 + s.path 1 < Config.pathBound then raise 1 (Config.pathBound - s.path 0) 1 s else s

/-- The second fix: Z4 is at least 440 mm (R174). -/
def fixZ4 (s : State) : State := if s.path 4 < Config.pathBound then raise 4 Config.pathBound 0 s else s

/-- The third fix: T_jam is greater than T_slip (R174). -/
def fixTJam (s : State) : State := if s.path 15 ≤ s.path 14 then raise 15 (s.path 14 + 10) 15 s else s

/-- The purge capacity test of R173, told whether the tray was full before the latch. -/
def purgeCapacityTest (was : Bool) (s : State) : State :=
  if s.trayFull == was then s
  else paceTest (if was then s else notify (.purgeFull s.tracker.purgeCount s.purgeCapacity false) s)

/-- The PATH and MEDIA latch (R173): copy, fixes, travels, purge capacity test. -/
def latchPathMedia (s : State) : State :=
  let was := s.trayFull
  let s := { s with latched := { s.latched with path := s.staged.path, media := s.staged.media } }
  let s := fixTJam (fixZ4 (fixZ2 s))
  let s := modTracker (fun t => { t with travels := travelsOf s.latched.path }) s
  purgeCapacityTest was s

/-! ## The DELIVERY and LINK latches (R140, R164) -/

/-- What a DELIVERY latch does to one bin whose height exceeds its new capacity (R140). -/
def overfullBin (b : Fin 24) (s : State) : State :=
  let q := s.getBin b
  if decide (s.binCapacity b < q.height) then
    if q.state == .owned then
      let s := modBin b (fun q => { q with state := .full }) s
      notify (binFullNotice s b) s
    else if q.state == .opened && q.preOpen == some .owned then
      let s := modBin b (fun q => { q with preOpen := some .full }) s
      notify (binFullNotice s b) s
    else s
  else s

/-- The DELIVERY latch without the arbitration that follows it (R140). Several bins over their new capacity are acted on, and
their notices sent, in ascending bin number: R140 gives no order (DESIGN CHOICE, log 47). -/
def copyDelivery (s : State) : State :=
  allBins.foldl (fun s b => overfullBin b s) { s with latched := { s.latched with delivery := s.staged.delivery } }

/-- The DELIVERY latch with its arbitration (R140). -/
def deliveryLatch (s : State) : State := arbitrate (copyDelivery s)

/-- The LINK latch: the staged mask is in force at once (R164, R170). -/
def latchMask (s : State) : State := { s with latched := { s.latched with mask := s.staged.mask } }

/-! ## The profile image (10.5, R175) -/

/-- A byte of the configuration memory; an unlisted byte reads 0xFF, as a blank memory does (R175, log 6). -/
def imageByte (m : List Host.Cell) (a : Nat) : Byte := (m.lookup a).getD 0xFF

/-- A word of the configuration memory: low byte first, word n at byte address 2n (10.5). -/
def imageWord (m : List Host.Cell) (n : Nat) : Nat :=
  (imageByte m (2 * n)).toNat + 256 * (imageByte m (2 * n + 1)).toNat

/-- The canonical form of the configuration memory: addresses strictly rising and within the 2 KB, and no cell equal to
what an unlisted byte reads as. -/
def Image.wf (m : List Host.Cell) : Bool :=
  decide ((m.map (·.1)).Pairwise (· < ·)) && m.all (fun c => decide (c.1 < Config.imageBytes) && c.2 != 0xFF#8)

/-- The pointers of the header: section id and word offset (10.5). -/
def imagePointers (m : List Host.Cell) : List (Nat × Nat) :=
  (List.range (imageWord m 1)).map (fun i => (imageWord m (2 + 2 * i), imageWord m (3 + 2 * i)))

/-- The header is bad (R175). -/
def headerBad (m : List Host.Cell) : Bool :=
  imageWord m 0 != 0xDC24 || imageWord m 1 == 0 || decide (5 < imageWord m 1) ||
    (imagePointers m).any (fun p => p.1 == 0 || decide (5 < p.1))

/-- The pairs of a section of `n` pairs at word offset `off`: parameter id and value (10.5). -/
def sectionPairs (m : List Host.Cell) (off n : Nat) : List (Nat × Nat) :=
  (List.range n).map (fun i => (imageWord m (off + 1 + 2 * i), imageWord m (off + 2 + 2 * i)))

/-- A section does not fit (R175, LENGTH). -/
def sectionMisfit (m : List Host.Cell) (off : Nat) : Bool :=
  let n := imageWord m off
  decide (off < 2 + 2 * imageWord m 1) || decide (60 < n) || decide (Config.imageWords < off + 2 * n + 2)

/-- The sum of a section's 2n + 2 words, modulo 65,536 (10.5). -/
def sectionSum (m : List Host.Cell) (off : Nat) : Nat :=
  ((List.range (2 * imageWord m off + 2)).map (fun i => imageWord m (off + i))).sum % 65536

/-- A pair that a section of the group may not hold (R175, ID). -/
def strangerPair (g : Group) (p : Nat × Nat) : Bool :=
  match paramOf p.1 with
  | none => true
  | some q => q.group != g || (g == .link && decide (q.high < p.2))

/-- The judgement of one group with a good header: the cause, NONE for a good or absent group, and its pairs (R175). -/
def judgeSection (m : List Host.Cell) (g : Group) : ProfileCause × List (Nat × Nat) :=
  match (imagePointers m).filter (fun p => p.1 == g.code) with
  | [] => (.none, [])
  | [(_, off)] =>
    if sectionMisfit m off then (.length, [])
    else if sectionSum m off != 0 then (.checksum, [])
    else
      let pairs := sectionPairs m off (imageWord m off)
      if pairs.any (strangerPair g) then (.id, []) else (.none, pairs)
  | _ => (.pointer, [])

/-- The judgement of one group (R175). -/
def judgeGroup (m : List Host.Cell) (g : Group) : ProfileCause × List (Nat × Nat) :=
  if headerBad m then (.header, []) else judgeSection m g

/-- The value of a pair in the parameter's own unit: bin and shelf capacities are held in units of 10 um (10.5). -/
def Param.fromImage (p : Param) (v : Nat) : Nat := if p.group = .delivery ∧ 4 ≤ p.index then 10 * v else v

/-- One pair of a good section: its clamped value becomes the parameter's loaded value (R175). -/
def loadPair (vs : List Nat) (pair : Nat × Nat) : List Nat :=
  match paramOf pair.1 with
  | none => vs
  | some p => vs.set p.index (p.clamp (p.fromImage pair.2))

/-- The loaded values of a group: defaults, with the pairs of a good section taken in order (R175). -/
def loadedValues (m : List Host.Cell) (g : Group) : List Nat := (judgeGroup m g).2.foldl loadPair g.defaults

/-- The cause found for a group (R175). -/
def profileCause (m : List Host.Cell) (g : Group) : ProfileCause := (judgeGroup m g).1

/-- The loaded values of a group become its staged values (R176, R178). -/
def stageLoaded (g : Group) (s : State) : State :=
  { s with staged := s.staged.withValues g (loadedValues s.image g) }

end Sys2Proof.Machine
end

