-- ==== Sys2Proof/Machine/Trip.lean ====
section
/-! DEFINITION. The shuttle's trip (7.4, 7.5): the outbound move, arrival, drop, docking, and the end of a compiler's transfer
(R108), which starts it. -/

namespace Sys2Proof.Machine

/-- The outbound move starts: from level 0 to the target's level (R126, R61, R62). -/
def startOutbound (s : State) : State :=
  match s.shuttle.target with
  | none => s
  | some t =>
    modShuttle (fun h =>
      { h with
        state := .moving,
        move := some { leg := .outbound, origin := 0, dest := t.level,
                       timeout := some (after s.now (moveTicks s t.level + s.shuttleMargin)) },
        free := some (after s.now (tripTicks s t.level)) }) s

/-- The granted compiler's packet comes on board with its blocked-notice-sent mark; the outbound move starts unless the
TOWER cover is open (R126, R121). -/
def packetAboard (p : Packet) (blocked : Bool) (s : State) : State :=
  let s := modShuttle (fun h =>
    { h with state := .moving, packet := some p, blockedSent := blocked, granted := none, move := none,
             waiting := false, reachedMark := false }) s
  if s.shuttle.suspended then s else startOutbound s

/-- The end of compiler X's transfer (R108): the packet passes to the shuttle, the stack is emptied, the set's assignment is
cleared, the reserved set is promoted or X becomes EMPTY or OUT, and the release and pace tests follow. -/
def transferEnd (x : CompilerId) (s : State) : State :=
  let c := s.comp x
  let s := match c.packet with
    | none => s
    | some p => packetAboard p c.blockedSent s
  let s := modComp x (fun c => { c with packet := none, transfer := none, undeliverable := false, blockedSent := false }) s
  let s := match c.current with
    | none => s
    | some k => modSet k (fun q => { q with assigned := none }) s
  afterSetChange (promoteOrEmpty x s)

/-- A drop puts the packet in its bin's list, or on the shelf with the OVERFLOW flag (R128). The second part is the packet
as its notice shows it. -/
def dropInto (t : Target) (p : Packet) (s : State) : State × Packet :=
  match t with
  | .bin b => (modBin b (fun q => { q with packets := q.packets ++ [p] }) s, p)
  | .shelf =>
    let p := { p with flags := { p.flags with overflow := true } }
    ({ s with shelf := { s.shelf with height := s.shelf.height + p.thickness, count := s.shelf.count + 1 } }, p)

/-- The place a Packet Delivered notice names for a target. -/
def Target.place : Target → Place
  | .bin b => .bin b
  | .shelf => .shelf

/-- The drop starts and the packet is delivered (R128). -/
def dropStart (t : Target) (p : Packet) (s : State) : State :=
  let s := modShuttle (fun h => { h with state := .dropping, dropEnd := some (after s.now s.tDrop), waiting := false }) s
  let d := dropInto t p s
  let s := notify (.packetDelivered t.place d.2) d.1
  retireSet p.key (modShuttle (fun h => { h with packet := none, blockedSent := false }) s)

/-- The shuttle waits at its level: the packet on board has no target (R127). The first finding for a packet sends a
Delivery Blocked notice with the shuttle's level (R121). -/
def waitAtLevel (p : Packet) (s : State) : State :=
  let sent := s.shuttle.blockedSent
  let s := modShuttle (fun h => { h with waiting := true, target := none, blockedSent := true }) s
  if sent then s else notify (.deliveryBlocked none (some s.shuttle.level) p (s.activeBin p.key.run)) s

/-- The check at the level: drop, retarget or wait (R127). -/
def checkAtLevel (p : Packet) (s : State) : State :=
  match s.shuttle.target.filter (targetTakes s p) with
  | some t => dropStart t p s
  | none =>
    match selectTarget p s with
    | (s', some t) => startRetarget t s'
    | (s', none) => waitAtLevel p s'

/-- An outbound or retarget move ends at its destination (R127). The reached mark is cleared as the move ends: R132 clears it
at an opening and no rule at this end (DESIGN CHOICE, log 48). -/
def arrive (m : Move) (s : State) : State :=
  let s := modShuttle (fun h => { h with move := none, reachedMark := false, level := m.dest }) s
  match s.shuttle.packet with
  | none => s
  | some p => checkAtLevel p s

/-- The shuttle is DOCKED at level 0: the DELIVERY values are latched and one arbitration runs (R129, R131, R140, log 21). The
reached mark of a return that a closing ended is cleared (DESIGN CHOICE, log 48). -/
def dock (s : State) : State :=
  deliveryLatch (modShuttle (fun h =>
    { h with state := .docked, level := 0, target := none, move := none, waiting := false, reachedMark := false,
             free := none }) s)

/-- A move that is taken as ended: the return docks, the other legs arrive (R127, R129). -/
def moveEnd (m : Move) (s : State) : State :=
  match m.leg with
  | .return => dock s
  | .outbound => arrive m s
  | .retarget => arrive m s

/-- The return move starts from the shuttle's level (R129, R62). -/
def startReturn (s : State) : State :=
  let est := moveTicks s s.shuttle.level
  modShuttle (fun h =>
    { h with
      state := .returning, dropEnd := none, target := none,
      move := some { leg := .return, origin := h.level, dest := 0, timeout := some (after s.now (est + s.shuttleMargin)) },
      free := some (after s.now est) }) s

/-- The estimate of a move and of the legs that follow it (R61, R62). -/
def moveAndFollowing (s : State) (m : Move) : Nat :=
  let est := legTicks s m.origin m.dest
  match m.leg with
  | .return => est
  | .outbound => est + s.tDrop + moveTicks s m.dest
  | .retarget => est + s.tDrop + moveTicks s m.dest

/-- A suspended move is restarted from its origin level (R133, R61, R62). -/
def restartMove (m : Move) (s : State) : State :=
  modShuttle (fun h =>
    { h with
      move := some { m with timeout := some (after s.now (legTicks s m.origin m.dest + s.shuttleMargin)) },
      free := some (after s.now (moveAndFollowing s m)) }) s

/-- A move goes on at a TOWER closing: with the reached mark it ends, else, if the opening had stopped its timeout, it is
restarted (R133). -/
def resumeMove (m : Move) (s : State) : State :=
  if s.shuttle.reachedMark then moveEnd m s
  else if m.timeout.isNone then restartMove m s
  else s

/-- The exit test of FAULT at a TOWER closing (R131), with the pace test its change of state asks for (R88; log 43). The exit
clears the cycle mark, which no rule says (DESIGN CHOICE, log 49). -/
def faultExit (s : State) : State :=
  if s.shuttle.home then
    if s.shuttle.cycleMark then paceTest (dock (modShuttle (fun h => { h with cycleMark := false, packet := none }) s)) else s
  else modShuttle (fun h => { h with cycleMark := false }) s

end Sys2Proof.Machine
end

