-- ==== Sys2Proof/Machine/Closing.lean ====
section
/-! DEFINITION. A compiler's operations (06): landing (R100), the close (R102 to R106), the FRONT cover (R112, R113) and
CLEAR_WAIT (R115). -/

namespace Sys2Proof.Machine

/-! ## Landing (R100) -/

/-- A sheet lands in compiler X (R100): the stack and the set's pages in compiler grow, the paper reading becomes present,
the close condition is tested, and the landing of the last page is followed by the pace test (R88). -/
def land (x : CompilerId) (tag : Nat) (sh : Sheet) (s : State) : State :=
  let s := modComp x (fun c =>
    { c with
      count := c.count + 1, tags := c.tags ++ [tag],
      thickness := min Config.stackLimit (c.thickness + s.mediaThickness sh.media),
      paper := true, lastLanding := s.now }) s
  let s := closeTest x (modSet sh.key (fun q => { q with inCompiler := q.inCompiler + 1 }) s)
  if (s.getSet sh.key).any (fun q => sh.page == q.pages) then paceTest s else s

/-! ## Close start (R102, R21, R22) -/

/-- The side opposite, of LEFT and RIGHT. -/
def Side.flip : Side → Side
  | .left => .right
  | .right => .left
  | .none => .none

/-- The packet takes TOO_THICK (R102 step 3). -/
def tooThick (c : Compiler) (r : Run) : Bool := r.pattern != .none && decide (c.stapleLimit < c.thickness)

/-- The packet created at close start (R22, R102). -/
def newPacket (s : State) (c : Compiler) (q : SetRec) (r : Run) : Packet :=
  { seq := s.nextSeq, key := q.key, sheets := c.count, thickness := c.thickness, stapled := false,
    side := match r.offset with
      | .alternate => r.nextSide
      | .none => .none,
    flags := { tooThick := tooThick c r, incomplete := decide (c.count < q.pages), reprinted := q.reprinted } }

/-- The planned strokes (R102 step 3). -/
def plannedStrokes (p : Packet) (r : Run) : Nat := if p.flags.tooThick || p.flags.incomplete then 0 else r.pattern.strokes

/-- The run's next offset side after a close start (R22). -/
def Run.flipSide (r : Run) : Run :=
  match r.offset with
  | .alternate => { r with nextSide := r.nextSide.flip }
  | .none => r

/-- The close starts in compiler X with current set `q` of run `r` (R102). -/
def closeStart (x : CompilerId) (q : SetRec) (r : Run) (s : State) : State :=
  let c := s.comp x
  let p := newPacket s c q r
  let s := { s with nextSeq := s.nextSeq + 1 }
  let s := modRun q.key.run Run.flipSide (modSet q.key (fun q => { q with state := .packing }) s)
  paceTest (modComp x (fun c =>
    { c with
      state := .closing, settle := none, packet := some p, jogStart := s.now,
      close := some { planned := plannedStrokes p r, made := 0, retry := false, retries := 0,
                      jogEnd := some (after s.now c.tJog), report := none, noMore := false } }) s)

/-! ## Strokes and the close's end (R103 to R106) -/

/-- Stapled at the end of a close (R106 step 1): strokes were planned and every one was made. -/
def CloseProgress.allMade (p : CloseProgress) : Bool := decide (0 < p.planned) && p.made == p.planned

/-- The close of compiler X ends (R106): READY, with its packet offered to the arbiter. -/
def closeEnd (x : CompilerId) (s : State) : State :=
  let s := modComp x (fun c =>
    { c with
      state := .ready, close := none, undeliverable := false, blockedSent := false,
      packet := c.packet.map (fun p => { p with stapled := c.close.any CloseProgress.allMade }) }) s
  paceTest (arbitrate s)

/-- Changes the packet's flags. -/
def Compiler.flagPacket (f : PacketFlags → PacketFlags) (c : Compiler) : Compiler :=
  { c with packet := c.packet.map (fun p => { p with flags := f p.flags }) }

/-- A stroke starts (R103 step 3): a staple is taken from the count and the report timer starts; a stroke started with the
retry flag set is a retry, counted for the estimate of R58. -/
def strokeStart (x : CompilerId) (p : CloseProgress) (s : State) : State :=
  let c := s.comp x
  supplyTests x c.staples c.threshold (modComp x (fun c =>
    { c with
      staples := c.staples - 1,
      close := some { p with report := some (after s.now (c.tStaple + Config.timerMargin)),
                             retries := if p.retry then p.retries + 1 else p.retries } }) s)

/-- The test before a stroke (R103): the close ends, or the stapler is tested and the stroke starts. -/
def strokeTest (x : CompilerId) (s : State) : State :=
  let c := s.comp x
  match c.close with
  | none => s
  | some p =>
    if p.noMore || decide (p.planned ≤ p.made) then closeEnd x s
    else if c.fault then closeEnd x (modComp x (Compiler.flagPacket (fun f => { f with stapleFailed := true })) s)
    else if c.staples = 0 then closeEnd x (modComp x (Compiler.flagPacket (fun f => { f with noStaple := true })) s)
    else strokeStart x p s

/-- The stapler enters FAULT during a close (R104, R105): STAPLE_FAILED, a Stapler Fault notice, and the close ends. -/
def staplerFault (x : CompilerId) (cause : StaplerCause) (s : State) : State :=
  let position := ((s.comp x).close.map (fun p => p.made + 1)).getD 1
  let s := modComp x (fun c =>
    Compiler.flagPacket (fun f => { f with stapleFailed := true })
      { c with fault := true, close := c.close.map (fun p => { p with report := none, noMore := true }) }) s
  let s := match (s.comp x).packet with
    | none => s
    | some p => notify (.staplerFault x p position cause) s
  closeEnd x s

/-- A FORMED report (R104): the position is made, and the test of R103 is made for the next. -/
def strokeFormed (x : CompilerId) (s : State) : State :=
  strokeTest x (modComp x (fun c =>
    { c with close := c.close.map (fun p => { p with report := none, made := p.made + 1, retry := false }) }) s)

/-- A NOT_FORMED report (R104): a retry of a first attempt, FAULT on the retry. -/
def strokeNotFormed (x : CompilerId) (p : CloseProgress) (s : State) : State :=
  if p.retry then staplerFault x .notFormed s
  else strokeTest x (modComp x (fun c => { c with close := some { p with report := none, retry := true } }) s)

/-! ## The FRONT cover (R112, R113) and CLEAR_WAIT (R115) -/

/-- A FRONT opening suspends a compiler (R112). -/
def Compiler.suspend (c : Compiler) : Compiler :=
  match c.state with
  | .gathering => { c with settle := none }
  | .closing =>
    match c.close with
    | none => c
    | some p =>
      if p.report.isSome then
        Compiler.flagPacket (fun f => { f with stapleUnverified := true })
          { c with close := some { p with report := none, noMore := true } }
      else { c with close := some { p with jogEnd := none } }
  | .transfer => { c with transfer := none }
  | .clearWait => { c with cycleMark := true }
  | .empty => c
  | .ready => c
  | .out => c

/-- CLEAR_WAIT at a FRONT closing (R115). The cycle mark is cleared as the compiler leaves: no rule says what it is then (DESIGN
CHOICE, log 52). -/
def clearWaitClosing (x : CompilerId) (s : State) : State :=
  let c := s.comp x
  if c.paper then modComp x (fun c => { c with cycleMark := false }) s
  else if c.cycleMark then paceTest (becomeEmpty x (modComp x (fun c => { c with cycleMark := false }) s))
  else s

/-- The jog starts again (R113), for a close that the opening had suspended. The retry strokes counted so far stay counted
(DESIGN CHOICE, log 46). -/
def restartJog (now : Tick) (c : Compiler) : Compiler :=
  match c.close with
  | none => c
  | some p =>
    if p.jogEnd.isNone && p.report.isNone then
      { c with jogStart := now, close := some { p with jogEnd := some (after now c.tJog) } }
    else c

/-- A suspended transfer at a FRONT closing (R113): it ends with the paper absent, else it runs again. -/
def resumeTransfer (x : CompilerId) (s : State) : State :=
  let c := s.comp x
  if c.transfer.isSome then s
  else if !c.paper then transferEnd x s
  else
    modComp x (fun c =>
      { c with transfer := some (after s.now (c.tTransfer + Config.timerMargin)), transferStart := s.now }) s

/-- A FRONT closing restarts a compiler (R113). -/
def resumeCompiler (x : CompilerId) (s : State) : State :=
  match (s.comp x).state with
  | .gathering => closeTest x s
  | .closing => modComp x (restartJog s.now) s
  | .transfer => resumeTransfer x s
  | .clearWait => clearWaitClosing x s
  | .empty => s
  | .ready => s
  | .out => s

end Sys2Proof.Machine
end

