-- ==== Sys2Proof/Machine/Shuttle.lean ====
section
/-! DEFINITION. The meanings of the shuttle, TOWER cover and shelf commands (07). -/

namespace Sys2Proof.Machine

/-- What a command answers: every command of the part has a next state. -/
abbrev Result := Host.Outcome State Fault Refusal

/-- POSITION_REACHED (R127, R129, R131): ends the move in progress; with the TOWER cover open it sets the reached mark; with
no move in progress, and in FAULT, it is ignored. -/
def execPositionReached (s : State) : Result :=
  .next (takeEvent id (fun s =>
    match s.shuttle.move with
    | none => s
    | some m =>
      if s.shuttle.state = .fault then s
      else if s.shuttle.suspended then modShuttle (fun h => { h with reachedMark := true }) s
      else moveEnd m s) s)

/-- DROP_END (R129): the drop timer expires and the return move starts. -/
def execDropEnd (s : State) : Result :=
  .next (if expired s.now s.shuttle.dropEnd then startReturn s else s)

/-- A packet on board at a failed move is delivered as DELIVERY_UNCERTAIN, naming no bin (step 3 of R130). -/
def loseOnBoard (s : State) : State :=
  match s.shuttle.packet with
  | none => s
  | some p =>
    let p := { p with flags := { p.flags with deliveryUncertain := true } }
    let s := notify (.packetDelivered .nowhere p) s
    retireSet p.key (modShuttle (fun h => { h with packet := none, blockedSent := false, target := none }) s)

/-- A move has failed (R130). The reached mark goes with the move (log 48). -/
def moveFailed (m : Move) (s : State) : State :=
  let s := modShuttle (fun h =>
    { h with state := .fault, move := none, waiting := false, reachedMark := false, cycleMark := s.pins.tower }) s
  let s := notify (.shuttleFault m.leg m.origin m.dest s.shuttle.packet) s
  paceTest (loseOnBoard s)

/-- MOVE_TIMEOUT (R130). -/
def execMoveTimeout (s : State) : Result :=
  .next (match s.shuttle.move with
    | none => s
    | some m => if expired s.now m.timeout then moveFailed m s else s)

/-- SHUTTLE_HOME (R131): "A home event changes only the home reading, in every state." -/
def execShuttleHome (active : Bool) (s : State) : Result :=
  .next (takeEvent (fun p => { p with home := active }) (modShuttle (fun h => { h with home := active })) s)

/-- What a TOWER opening does to the shuttle by its state (the table of R132). -/
def Shuttle.suspend (h : Shuttle) : Shuttle :=
  let h := { h with suspended := true }
  match h.state with
  | .docked => h
  | .loading => h
  | .moving => { h with move := h.move.map (fun m => { m with timeout := none }), reachedMark := false }
  | .returning => { h with move := h.move.map (fun m => { m with timeout := none }), reachedMark := false }
  | .dropping => { h with dropEnd := none }
  | .fault => { h with cycleMark := true }

/-- TOWER_OPEN (R132): a Cover notice, the suspension, and the pace test. -/
def execTowerOpen (s : State) : Result :=
  .next (takeEvent (fun p => { p with tower := true })
    (fun s => paceTest (modShuttle Shuttle.suspend (notify (.cover .tower true) s))) s)

/-- A carrying or waiting shuttle goes on at a TOWER closing (R133). -/
def resumeMoving (s : State) : State :=
  match s.shuttle.move with
  | some m => resumeMove m s
  | none => if s.shuttle.waiting then retryWaiting s else startOutbound s

/-- Each state continues from the time of the closing (R133). -/
def resumeShuttle (s : State) : State :=
  match s.shuttle.state with
  | .docked => arbitrate s
  | .loading => s
  | .moving => resumeMoving s
  | .returning =>
    match s.shuttle.move with
    | some m => resumeMove m s
    | none => s
  | .dropping =>
    if s.shuttle.dropEnd.isNone then modShuttle (fun h => { h with dropEnd := some (after s.now s.tDrop) }) s else s
  | .fault => faultExit s

/-- TOWER_CLOSE (R132, R133): a Cover notice, the end of the suspension, the pace test, and the shuttle goes on. -/
def execTowerClose (s : State) : Result :=
  .next (takeEvent (fun p => { p with tower := false })
    (fun s =>
      resumeShuttle (paceTest (modShuttle (fun h => { h with suspended := false }) (notify (.cover .tower false) s)))) s)

/-- SHELF_EMPTY (R141): the height and count become 0, the mark is cleared, and a packet may find a target. -/
def execShelfEmpty (s : State) : Result :=
  .next (takeEvent (fun p => { p with shelfEmpty := true })
    (fun s => targetEvent { s with shelf := { height := 0, count := 0, fullMark := false, readsEmpty := true } }) s)

/-- SHELF_NOT_EMPTY (R141): "the sensor changing to not empty, changes only the reading". -/
def execShelfNotEmpty (s : State) : Result :=
  .next (takeEvent (fun p => { p with shelfEmpty := false })
    (fun s => { s with shelf := { s.shelf with readsEmpty := false } }) s)

end Sys2Proof.Machine
end

