-- ==== Sys2Proof/Machine/Compilers.lean ====
section
/-! DEFINITION. The meanings of the compiler and stapler commands (06). -/

namespace Sys2Proof.Machine

/-- SETTLE_END (R102): the settle timer expires and the close starts. -/
def execSettleEnd (x : CompilerId) (s : State) : Result :=
  .next (
    if expired s.now (s.comp x).settle then
      match (s.comp x).current.bind s.getSet with
      | none => modComp x (fun c => { c with settle := none }) s
      | some q =>
        match s.getRun q.key.run with
        | none => modComp x (fun c => { c with settle := none }) s
        | some r => closeStart x q r s
    else s)

/-- JOG_END (R103): the jog ends and the test before a stroke is made. -/
def execJogEnd (x : CompilerId) (s : State) : Result :=
  .next (
    match (s.comp x).close with
    | none => s
    | some p =>
      if expired s.now p.jogEnd then
        strokeTest x (modComp x (fun c => { c with close := some { p with jogEnd := none } }) s)
      else s)

/-- STROKE_REPORT (R104): "A report that comes while no stroke is in progress is ignored." -/
def execStrokeReport (x : CompilerId) (formed : Bool) (s : State) : Result :=
  .next (takeEvent id (fun s =>
    match (s.comp x).close with
    | none => s
    | some p =>
      if p.report.isNone then s
      else if formed then strokeFormed x s
      else strokeNotFormed x p s) s)

/-- REPORT_TIMER_EXPIRY (R105). -/
def execReportTimerExpiry (x : CompilerId) (s : State) : Result :=
  .next (
    match (s.comp x).close with
    | none => s
    | some p => if expired s.now p.report then staplerFault x .noReport s else s)

/-- The level of a compiler's paper input. -/
def Pins.setCompPaper (x : CompilerId) (v : Bool) (p : Pins) : Pins :=
  match x with
  | .a => { p with compPaperA := v }
  | .b => { p with compPaperB := v }

/-- The level of a stapler's cartridge input. -/
def Pins.setCart (x : CompilerId) (v : Bool) (p : Pins) : Pins :=
  match x with
  | .a => { p with cartA := v }
  | .b => { p with cartB := v }

/-- A transfer in progress and not suspended ends (R107, R112). -/
def endRunningTransfer (x : CompilerId) (s : State) : State :=
  if (s.comp x).state = .transfer ∧ (s.comp x).transfer.isSome = true then transferEnd x s else s

/-- COMPILER_PAPER_ABSENT (R107, R116): the reading changes, a transfer in progress ends, and the leaving test is made
(R70). -/
def execCompilerPaperAbsent (x : CompilerId) (s : State) : Result :=
  .next (takeEvent (Pins.setCompPaper x false)
    (fun s => leaveTest (endRunningTransfer x (modComp x (fun c => { c with paper := false }) s))) s)

/-- TRANSFER_TIMER_EXPIRY (R107): the transfer ends as at a paper-absent event. -/
def execTransferTimerExpiry (x : CompilerId) (s : State) : Result :=
  .next (if (s.comp x).state = .transfer ∧ expired s.now (s.comp x).transfer = true then transferEnd x s else s)

/-- COMPILER_PAPER_PRESENT (R116): the reading changes "and nothing more". -/
def execCompilerPaperPresent (x : CompilerId) (s : State) : Result :=
  .next (takeEvent (Pins.setCompPaper x true) (modComp x (fun c => { c with paper := true })) s)

/-- CARTRIDGE_INSERTED (R110): the count becomes the latched capacity and FAULT is cleared; no notice. -/
def execCartridgeInserted (x : CompilerId) (s : State) : Result :=
  .next (takeEvent (Pins.setCart x true) (modComp x (fun c => { c with staples := c.capacity, fault := false })) s)

/-- CARTRIDGE_REMOVED (R110): the count becomes 0 and the Staple Out test follows (R111). -/
def execCartridgeRemoved (x : CompilerId) (s : State) : Result :=
  .next (takeEvent (Pins.setCart x false)
    (fun s =>
      supplyTests x (s.comp x).staples (s.comp x).threshold (modComp x (fun c => { c with staples := 0 }) s)) s)

end Sys2Proof.Machine
end

