-- ==== Sys2Proof/Machine/Routing.lean ====
section
/-! DEFINITION. The Router's decisions on a record of the path table (05): the route decision (R84, R85), the diverter (R89,
R90) and the gate (R93, R94). Records are named by their place in the table. -/

namespace Sys2Proof.Machine

/-! ## The route decision (R84, R85) -/

/-- Compiler X can take a new set of the run (R57). -/
def canTake (s : State) (r : Run) (x : CompilerId) : Bool := available s x && canStaple (s.comp x) r

/-- The choice of R59: the available compiler with the earlier F; a tie goes to the one that did not take last. -/
def chooseCompiler (s : State) (r : Run) : Option CompilerId :=
  match canTake s r .a, canTake s r .b with
  | true, true =>
    let fa := freeEstimate s .a
    let fb := freeEstimate s .b
    some (if earlier fa fb then .a else if earlier fb fa then .b else otherCompiler s.router.lastTaker)
  | true, false => some .a
  | false, true => some .b
  | false, false => none

/-- Compiler X takes set `k`: as its current set when it is EMPTY, else as its reserved set (R85, R99, R12). -/
def assign (x : CompilerId) (k : SetKey) (s : State) : State :=
  if (s.comp x).state = .empty then
    let s := modComp x (fun c =>
      { c with state := .gathering, current := some k, count := 0, thickness := 0, tags := [] }) s
    afterSetChange (modSet k (fun q => { q with assigned := some (x, .current) }) s)
  else
    let s := modComp x (fun c => { c with reserved := some k }) s
    modSet k (fun q => { q with assigned := some (x, .reserved) }) s

/-- Gives the record at place `i` its route and divert reason. -/
def setRoute (i : Nat) (r : Route) (reason : Option DivertReason) (s : State) : State :=
  modRec i (fun q => { q with route := r, reason := reason }) s

/-- A new set goes to compiler X (R85): route, assignment, last-taker, and the gap of R60 with its notice. The tests of R99 that
follow an EMPTY compiler's new current set come before the Pace GAP notice (DESIGN CHOICE, log 53). -/
def takeNewSet (i : Nat) (tag : Nat) (k : SetKey) (lead : Tick) (x : CompilerId) (s : State) : State :=
  let h := holdOf (freeEstimate s x) (predictedArrival s x lead)
  let g := gapOf s h
  let s := modRouter (fun r => { r with lastTaker := x }) (assign x k (setRoute i (.to x) none s))
  if 0 < g then notify (.paceGap tag g x h) s else s

/-- The new-set choice (R85): a compiler, or PURGE for NO_COMPILER with the set's diversion. -/
def newSetChoice (i : Nat) (r : PathRec) (sh : Sheet) (s : State) : State :=
  match (s.getRun sh.key.run).bind (chooseCompiler s) with
  | some x => takeNewSet i r.tag sh.key (r.lead.s0.getD s.now) x s
  | none => drainTest sh.key (divertSet sh.key sh.page .noCompiler (setRoute i .purge (some .noCompiler) s))

/-- The route decision for the record `r` at place `i`, just confirmed (R84): the three tests and the purge tray test of a
PURGE route (R83). -/
def routeDecision (i : Nat) (r : PathRec) (sh : Sheet) (s : State) : State :=
  let s :=
    if s.isDiverting sh.key then setRoute i .purge (some .setDiverted) s
    else
      match (s.getSet sh.key).bind (·.assigned) with
      | some (x, _) => setRoute i (.to x) none s
      | none => newSetChoice i r sh s
  if (s.tracker.path[i]?).any (fun q => q.route == .purge) then purgeRouteTest s else s

/-! ## The last page of a current set (R88) -/

/-- The record is the last page of a set that is a compiler's current set. -/
def lastOfCurrent (s : State) (r : PathRec) : Bool :=
  r.sheet.any (fun sh =>
    (s.getSet sh.key).any (fun q => sh.page == q.pages && q.assigned.any (fun a => a.2 == .current)))

/-! ## The diverter (R89, R90) -/

/-- A record between S2 and S4 on a compiler route (R90). -/
def PathRec.betweenS2S4 (r : PathRec) : Bool :=
  (match r.route with
    | .to _ => true
    | _ => false) && r.lead.s2.isSome && r.lead.s4.isNone

/-- The overrun count of the record at place `i`: the other records between S2 and S4 (R90). -/
def overrunCount (s : State) (i : Nat) : Nat := (s.tracker.path.eraseIdx i).countP PathRec.betweenS2S4

/-- The route is a compiler's. -/
def Route.isCompiler : Route → Bool
  | .to _ => true
  | _ => false

/-- What the diverter decides for the record `r` at place `i` (R89): the reason of a new PURGE route, if any. -/
def diverterReason (s : State) (i : Nat) (r : PathRec) : Option DivertReason :=
  if r.route.isCompiler then
    if r.key.any s.isDiverting then some .setDiverted
    else if Config.bufferPlaces ≤ overrunCount s i then some .overrun
    else none
  else none

/-- An OVERRUN is reported to the Run Manager as the set's diverted page (R89, R19). -/
def reportOverrun (reason : Option DivertReason) (sh : Option Sheet) (s : State) : State :=
  match reason, sh with
  | some .overrun, some sh => divertSet sh.key sh.page .overrun s
  | _, _ => s

/-- The diverter drive takes the position of the route in force (R89). -/
def diverterFor : Route → DiverterPos
  | .purge => .purge
  | _ => .feed

/-- The diverter at an S2 lead event (R89): the route, the set's diversion, the drive, and the purge tray test of a route
newly changed to PURGE (R83). -/
def diverter (i : Nat) (r : PathRec) (s : State) : State :=
  let reason := diverterReason s i r
  let route := if reason.isSome then .purge else r.route
  let s := reportOverrun reason r.sheet s
  let s := if reason.isSome then setRoute i .purge reason s else s
  let s := modRouter (fun q => { q with diverter := diverterFor route }) s
  if reason.isSome then purgeRouteTest s else s

/-- What the Router does after the deadlines of an S2 lead event are set (R89): the drain test of the record's set, the
cancellation test when the set is its compiler's current set and has just entered DIVERTING, and the pace test for the last
page of a current set. `last` says that the record was that page. -/
def afterDiverter (r : PathRec) (entered last : Bool) (s : State) : State :=
  let s := match r.key with
    | none => s
    | some k => drainTest k s
  let s := if entered then cancelTest true .b (cancelTest true .a s) else s
  if last then paceTest s else s

/-! ## The gate (R93, R94) -/

/-- The gate passes a record to S4: the buffer is empty and its compiler's current set is its set (R93). -/
def gatePasses (s : State) (r : PathRec) : Bool := s.buffer.isEmpty && compilerReady s r

/-- A record parks (R94): it joins the buffer and has no deadlines while it stays. -/
def park (i : Nat) (s : State) : State :=
  modRouter (fun q => { q with gate := .stop })
    (modRec i (fun r => { r with parked := true, leadDl := none, clearDl := none }) s)

end Sys2Proof.Machine
end

