-- ==== Sys2Proof/Machine/Tracking.lean ====
section
/-! DEFINITION. Sheet tracking (02 section 2.6, 04): what the Path Tracker and the Intake Unit do at a sensor event, record by
record. -/

namespace Sys2Proof.Machine

/-! ## Timers of the running transport -/

/-- The idle timer starts when the queue and the path table are both empty in RUN (R66). -/
def idleTest (s : State) : State :=
  if s.tracker.transport == .run && s.queue.isEmpty && s.tracker.path.isEmpty then
    modTracker (fun t => { t with idle := some (after s.now s.tIdle) }) s
  else s

/-- The head entry window starts for the head, if the queue has one, and the head waits; with no entry no window runs
(R35). -/
def startWindow (s : State) : State :=
  match s.queue with
  | [] => { s with window := none }
  | e :: es => { s with queue := { e with late := false } :: es, window := some s.now }

/-- A sensor's reading changes (R72). -/
def setReading (x : Sensor) (v : Bool) (s : State) : State :=
  modTracker (fun t => { t with readings := t.readings.set x v }) s

/-! ## S0 lead (R42, R43) -/

/-- A record as it joins the path table at an S0 lead event (R43, R52, R55). -/
def newRec (s : State) (tag : Nat) (kind : RecKind) (sh : Option Sheet) (route : Route) (reason : Option DivertReason) :
    PathRec :=
  let r : PathRec :=
    { tag := tag, kind := kind, sheet := sh, route := route, reason := reason,
      lead := (PerSensor.all none).set .s0 (some s.now), clear := PerSensor.all none,
      leadDl := some { at_ := after s.now (s.travel 0), sensor := .s1 }, clearDl := none, slip := false, parked := false }
  { r with clearDl := some (clearDeadlineAt s r .s0 s.now) }

/-- A record joins at the tail of the path table, and the idle timer stops (R74, R66). -/
def addRec (r : PathRec) (s : State) : State := modTracker (fun t => { t with path := t.path ++ [r], idle := none }) s

/-- A STRAY record is made at S0 with its Stray notice, and its PURGE route is tested (R42, R45, R83). No rule orders the Stray
notice and a Purge Full notice: the model makes Stray first (DESIGN CHOICE, log 53). -/
def strayAtLead (cause : StrayCause) (s : State) : State :=
  let s' := addRec (newRec s 0 .stray none .purge (some .stray)) s
  purgeRouteTest (notify (.stray cause 0 s.now 0 0) s')

/-- The head leaves the queue by a match; the next entry becomes head and its window starts (R42, R35). -/
def takeHead (es : List Entry) (s : State) : State := startWindow { s with queue := es }

/-- The head entry becomes a VOID or TENTATIVE record (R42 cases 4 and 5). -/
def matchHead (e : Entry) (es : List Entry) (s : State) : State :=
  if e.void then
    purgeRouteTest (takeHead es (addRec (newRec s 0 .void (some e.sheet) .purge (some .void)) s))
  else takeHead es (addRec (newRec s e.tag .tentative (some e.sheet) .unset none) s)

/-- An S0 lead event in RUN (R42). -/
def s0LeadRun (s : State) : State :=
  if Config.pathPlaces ≤ s.tracker.path.length then jamAtSensor .overfill .s0 s
  else if s.guard.isSome then strayAtLead .guard s
  else
    match s.queue with
    | [] => strayAtLead .unannounced s
    | e :: es => matchHead e es s

/-- A lead event outside RUN (R64, R65, R71, R79): in HALT it changes the reading only, else it is an UNEXPECTED jam. -/
def leadAtRest (x : Sensor) (s : State) : State :=
  if s.tracker.transport = .halt then s else jamAtSensor .unexpected x s

/-- An S0 lead event (R42, R72). -/
def leadAtS0 (s : State) : State :=
  let s := setReading .s0 true s
  if s.tracker.transport = .run then s0LeadRun s else leadAtRest .s0 s

/-! ## Clear deadlines (R55) -/

/-- The clear deadline after a clear event (R55): that of the next covered sensor, by the recorded lead time of that sensor;
absent when nothing is covered, and while the record is parked. After a release it is the S3 lead time that counts again, once
S2 clears. -/
def movedClearDl (s : State) (r : PathRec) : Option Deadline := if r.parked then none else currentClearDl s r

/-- The clear deadline of the record at place `i` moves on at a clear event (R55); one already reached at the moment it is set
gives the STAY jam at once (log 33). -/
def moveClearDl (i : Nat) (s : State) : State :=
  match s.tracker.path[i]? with
  | none => s
  | some r =>
    let dl := movedClearDl s r
    let s := modRec i (fun r => { r with clearDl := dl }) s
    match dl with
    | none => s
    | some d => if reached s.now d.at_ then jamOfRecord .stay d.sensor r (some d.at_) s else s

/-! ## S0 clear (R44) -/

/-- The measured length is within the latched L_tol of the announced length, inclusive (R44, R56). -/
def withinTol (s : State) (measured announced : Nat) : Bool :=
  decide (measured ≤ announced + s.lTol) && decide (announced ≤ measured + s.lTol)

/-- Confirmation (R44, R12), then the Router's route decision (R84). -/
def confirm (i : Nat) (r : PathRec) (sh : Sheet) (s : State) : State :=
  let s := modRec i (fun r => { r with kind := .confirmed }) s
  let s := modSet sh.key (fun q => { q with confirmed := q.confirmed + 1 }) s
  routeDecision i { r with kind := .confirmed } sh s

/-- The entry put back at the head by a demotion, in the held place (R44). -/
def restoredEntry (r : PathRec) (sh : Sheet) : Entry :=
  { tag := r.tag, sheet := sh, reprint := false, void := r.kind == .void, late := false }

/-- A record whose length is outside tolerance is demoted (R44): a STRAY record, its entry back at the head, a Stray notice
with cause LENGTH, and the purge tray test (R83), the Stray notice first (DESIGN CHOICE, log 53). -/
def demote (i : Nat) (r : PathRec) (sh : Sheet) (measured : Nat) (s : State) : State :=
  let s := modRec i (fun r =>
    { r with tag := 0, kind := .stray, sheet := none, route := .purge, reason := some .stray }) s
  let queue := restoredEntry r sh :: s.queue.map (fun e => { e with late := false })
  let s := startWindow { s with queue := queue }
  let s := notify (.stray .length r.tag (r.lead.s0.getD s.now) sh.length measured) s
  purgeRouteTest s

/-- A clear event in RUN matched at S0 to the record `r` at place `i` (R78, R44): a STRAY record is not measured; a TENTATIVE
record within tolerance is confirmed and routed, and after its deadline has moved on with the route in force the Router makes
the pace test (R84); a VOID record within tolerance stays VOID; outside tolerance either is demoted. -/
def s0ClearRec (i : Nat) (r : PathRec) (s : State) : State :=
  let s := modRec i (fun r => { r with clear := { r.clear with s0 := some s.now } }) s
  match r.sheet with
  | none => moveClearDl i s
  | some sh =>
    let measured := measuredLength s (r.lead.s0.getD s.now) s.now
    if withinTol s measured sh.length then
      if r.kind = .tentative then paceTest (moveClearDl i (confirm i r sh s)) else moveClearDl i s
    else moveClearDl i (demote i r sh measured s)

/-- The record that a clear event at a sensor belongs to: the oldest that covers it (R78). -/
def coveringRec (s : State) (x : Sensor) : Option Nat :=
  s.tracker.path.findIdx? (fun r => (r.lead.get x).isSome && (r.clear.get x).isNone)

/-- A clear event in HALT (R79): the JAM test and the leaving test. -/
def clearInHalt (s : State) : State := leaveTest (jamTest s)

/-- A clear event in RUN (R78): an UNEXPECTED jam when no record covers the sensor, else `f` on the record. -/
def clearInRun (x : Sensor) (f : Nat → PathRec → State → State) (s : State) : State :=
  match coveringRec s x with
  | none => jamAtSensor .unexpected x s
  | some i =>
    match s.tracker.path[i]? with
    | none => s
    | some r => f i r s

/-- A clear event at a sensor by transport state (R64, R65, R71, R78, R79): in OFF, SPINUP and RECOVER it changes the reading
only. -/
def clearEvent (x : Sensor) (f : Nat → PathRec → State → State) (s : State) : State :=
  let s := setReading x false s
  match s.tracker.transport with
  | .run => clearInRun x f s
  | .halt => clearInHalt s
  | .off => s
  | .spinup => s
  | .recover => s

/-! ## Sensor lead (R76, R77) -/

/-- Sensors of a route that come before a sensor and must have been seen for a candidate (R76). -/
def candidate (x : Sensor) (r : PathRec) : Bool :=
  match x with
  | .s0 => false
  | .s1 => r.lead.s0.isSome && r.lead.s1.isNone
  | .s2 => r.lead.s1.isSome && r.lead.s2.isNone
  | .s3 => r.route.isCompiler && r.lead.s2.isSome && r.lead.s3.isNone
  | .s3p => r.route == .purge && r.lead.s2.isSome && r.lead.s3p.isNone
  | .s4 => r.route.isCompiler && r.lead.s3.isSome && r.lead.s4.isNone && !r.parked
  | .s5a => r.route == .to .a && r.lead.s4.isSome && r.lead.s5a.isNone
  | .s5b => r.route == .to .b && r.lead.s4.isSome && r.lead.s5b.isNone

/-- The deadlines of the record at place `i` after a lead event at `x` (R52, R55): the lead deadline to the next sensor of
the route; a clear deadline when no sensor of the record was covered before. `covered` says that one was. -/
def setDeadlines (i : Nat) (x : Sensor) (covered : Bool) (s : State) : State :=
  modRec i (fun r =>
    { r with
      leadDl := leadDeadlineFrom s r x,
      clearDl := if covered then r.clearDl else some (clearDeadlineAt s r x s.now) }) s

/-- An accepted lead event at S2: the diverter, the deadlines, and what the Router does after them (R89). `r` is the record
with its lead time. -/
def leadAtS2 (i : Nat) (r : PathRec) (covered : Bool) (s : State) : State :=
  let last := lastOfCurrent s r
  let before := r.key.any s.isDiverting
  let s := setDeadlines i .s2 covered (diverter i r s)
  let entered := !before && (r.key.bind s.getSet).any (fun q =>
    q.state == .diverting && q.assigned.any (fun a => a.2 == .current))
  afterDiverter r entered last s

/-- An accepted lead event at S3: the gate passes the record or parks it (R93, R94); a parking is followed by the release
test (R95) and, for the last page of a current set, by the pace test (R88). -/
def leadAtS3 (i : Nat) (r : PathRec) (covered : Bool) (s : State) : State :=
  if gatePasses s r then modRouter (fun q => { q with gate := .pass }) (setDeadlines i .s3 covered s)
  else
    let s := releaseTest (park i s)
    if lastOfCurrent s r then paceTest s else s

/-- Steps 3 to 5 of R76 for the record `r` at place `i`: the lead time, the Router at S2 and S3, and the deadlines. -/
def acceptLead (x : Sensor) (i : Nat) (r : PathRec) (s : State) : State :=
  let covered := r.firstCovered.isSome
  let r := { r with lead := r.lead.set x (some s.now) }
  let s := modRec i (fun q => { q with lead := q.lead.set x (some s.now) }) s
  match x with
  | .s2 => leadAtS2 i r covered s
  | .s3 => leadAtS3 i r covered s
  | _ => setDeadlines i x covered s

/-- The lead event is stamped earlier than the deadline less T_early (R54). -/
def tooEarly (s : State) (r : PathRec) : Bool :=
  r.leadDl.any (fun d => earlier s.now (d.at_ - BitVec.ofNat 32 s.tEarly))

/-- A lead event in RUN matched to the record `r` at place `i` (R76, R77, R54). -/
def leadOfRec (x : Sensor) (i : Nat) (r : PathRec) (s : State) : State :=
  if x = .s2 ∧ r.clear.s0.isNone = true then jamOfRecord .stay .s0 r (r.clearDl.map (·.at_)) s
  else if tooEarly s r then jamOfRecord .early x r (r.leadDl.map (·.at_)) s
  else acceptLead x i r s

/-- A lead event in RUN at S1 to S5B (R76): an UNEXPECTED jam when there is no candidate. -/
def leadInRun (x : Sensor) (s : State) : State :=
  match s.tracker.path.findIdx? (candidate x) with
  | none => jamAtSensor .unexpected x s
  | some i =>
    match s.tracker.path[i]? with
    | none => s
    | some r => leadOfRec x i r s

/-- A lead event at S1 to S5B (R72, R76). -/
def leadAt (x : Sensor) (s : State) : State :=
  let s := setReading x true s
  if s.tracker.transport = .run then leadInRun x s else leadAtRest x s

/-! ## Exits (R75, R82) -/

/-- The record at place `i` leaves the path table (R75). -/
def dropRec (i : Nat) (s : State) : State := modTracker (fun t => { t with path := t.path.eraseIdx i }) s

/-- The purge count rises (R82): the notice and the pace test come when it reaches the capacity. -/
def countPurged (s : State) : State :=
  let s := modTracker (fun t => { t with purgeCount := t.purgeCount + 1 }) s
  if s.tracker.purgeCount = s.purgeCapacity then
    paceTest (notify (.purgeFull s.tracker.purgeCount s.purgeCapacity false) s)
  else s

/-- A CONFIRMED record of a set has left at S3P (R75, R12, R16, R101). The thickness taken off is the MEDIA value latched at the
exit (DESIGN CHOICE, log 56). -/
def purgeConfirmed (sh : Sheet) (s : State) : State :=
  let s := modSet sh.key (fun q =>
    { q with confirmed := q.confirmed - 1, thickness := q.thickness - s.mediaThickness sh.media }) s
  removalTest sh.key s

/-- The Router's drain tests after an exit at S3P, over the set table in slot order (R75, R92). -/
def drainTests (s : State) : State := (s.setRecs.map (·.key)).foldl (fun s k => drainTest k s) s

/-- The exit at S3P of the record `r` at place `i` (R75, R82). An exit that fills the tray makes its pace test with the count, before
the removal and drain tests: no rule orders a Pace notice against a Set Diverted or Run Done notice of the same exit (DESIGN
CHOICE, log 58). -/
def exitPurge (i : Nat) (r : PathRec) (s : State) : State :=
  let s := countPurged (dropRec i s)
  let s := match r.sheet with
    | none => s
    | some sh => if r.kind = .confirmed then purgeConfirmed sh s else s
  let s := drainTests s
  let s := match r.key with
    | none => s
    | some k => closeTestOf k s
  idleTest s

/-- The exit at S5X of the record `r` at place `i`: the sheet lands (R75, R100). -/
def exitLanding (x : CompilerId) (i : Nat) (r : PathRec) (s : State) : State :=
  let s := dropRec i s
  let s := match r.sheet with
    | none => s
    | some sh => land x r.tag sh s
  idleTest s

/-- A clear event in RUN matched at S1 to S5B (R78): the record leaves at the last sensor of its route, else its deadline
moves on. -/
def clearOfRec (x : Sensor) (i : Nat) (r : PathRec) (s : State) : State :=
  match x with
  | .s3p => exitPurge i r s
  | .s5a => exitLanding .a i r s
  | .s5b => exitLanding .b i r s
  | _ => moveClearDl i (modRec i (fun r => { r with clear := r.clear.set x (some s.now) }) s)

/-- The level of a path sensor's input. -/
def Pins.setSensor (x : Sensor) (v : Bool) (p : Pins) : Pins := { p with sensors := p.sensors.set x v }

end Sys2Proof.Machine
end

