-- ==== Sys2Proof/Machine/Intake.lean ====
section
/-! DEFINITION. The Intake Unit's queue (02): removal with its rollback (R18, R40), the acceptance of an Announce (R31, R11,
R32), the marking of an aborted set (R15, R34), and the meanings of the head window and guard timers. -/

namespace Sys2Proof.Machine

/-! ## Removal from the queue (R18, R39, R40) -/

/-- The set left by a rollback of the entries `es` that are its own (R18). The thickness taken off a page is the MEDIA value
latched at the removal: no rule says whether it is that one or the one added at the acceptance (DESIGN CHOICE, log 56). -/
def rolledBack (s : State) (es : List Entry) (q : SetRec) : SetRec :=
  { q with
    announced := q.announced - es.length,
    next := es.foldl (fun m e => min m e.sheet.page) q.next,
    thickness := es.foldl (fun t e => t - s.mediaThickness e.sheet.media) q.thickness,
    state := if q.state = .fed then .announcing else q.state }

/-- The rollback of one set (R18), the removal of a set left with nothing, and the drain test (R92). -/
def rollbackSet (es : List Entry) (k : SetKey) (s : State) : State :=
  let s := modSet k (rolledBack s (es.filter (fun e => e.sheet.key == k))) s
  if (s.getSet k).any (fun q => q.announced == 0 && q.confirmed == 0) then dropSet k s else drainTest k s

/-- The sets of a run of entries, each once, in queue order: R18 and R40 roll back "set by set" and give no order (DESIGN CHOICE,
log 54). -/
def entrySets (es : List Entry) : List SetKey :=
  es.foldl (fun ks e => if ks.contains e.sheet.key then ks else ks ++ [e.sheet.key]) []

/-- The rollback of every set with entries in the range that are not VOID (R18). -/
def rollback (removed : List Entry) (s : State) : State :=
  let live := removed.filter (fun e => !e.void)
  (entrySets live).foldl (fun s k => rollbackSet live k s) s

/-- The entry at place `i` and every entry behind it leave the queue (R39, R40): rollback, guard, and the idle timer when
nothing is left (R66). -/
def removeFrom (i : Nat) (s : State) : State :=
  let removed := s.queue.drop i
  let s := { s with queue := s.queue.take i, window := if i = 0 then none else s.window }
  let s := rollback removed s
  idleTest { s with guard := some (after s.now s.tGuard) }

/-! ## Acceptance of an Announce (R31, R11, R32) -/

/-- The record of a set created by an Announce (R9, R11). -/
def newSetRec (sh : Sheet) (thickness : Nat) : SetRec :=
  { key := sh.key, pages := sh.pages, next := 2, announced := 1, confirmed := 0, inCompiler := 0, assigned := none,
    thickness := thickness, aborted := false, reprinted := false, divertPage := none, divertCause := none,
    state := if sh.pages = 1 then .fed else .announcing }

/-- An ANNOUNCING or RECOVERING record advanced by an Announce (R11). -/
def advancedSet (thickness : Nat) (q : SetRec) : SetRec :=
  let reopened := q.state == .recovering
  { q with
    next := q.next + 1, announced := q.announced + 1, thickness := q.thickness + thickness,
    reprinted := q.reprinted || reopened,
    divertPage := if reopened then none else q.divertPage,
    state := if q.announced + 1 = q.pages then .fed else .announcing }

/-- The set record is created in the lowest free slot or advanced (R8, R11). -/
def announceSet (sh : Sheet) (s : State) : State :=
  let t := s.mediaThickness sh.media
  match s.getSet sh.key with
  | some _ => modSet sh.key (advancedSet t) s
  | none =>
    match s.freeSlot with
    | none => s
    | some i => { s with sets := s.sets.set i (some (newSetRec sh t)) }

/-- Spin-up starts from OFF (R32, R64): SPINUP, the PATH and MEDIA latch, and the spin-up timer. -/
def startSpinup (s : State) : State :=
  let s := latchPathMedia (modTracker (fun t => { t with transport := .spinup }) s)
  modTracker (fun t => { t with spinup := some (after s.now s.tSpinup) }) s

/-- An Announce is accepted (R31): the set record, the entry at the tail, the idle timer, the head window in RUN, and
spin-up from OFF. -/
def acceptAnnounce (tag : Nat) (sh : Sheet) (reprint : Bool) (s : State) : State :=
  let was := s.queue.isEmpty
  let s := announceSet sh s
  let e : Entry := { tag := tag, sheet := sh, reprint := reprint, void := false, late := false }
  let s := modTracker (fun t => { t with idle := none }) { s with queue := s.queue ++ [e] }
  match s.tracker.transport with
  | .run => if was then startWindow s else s
  | .off => startSpinup s
  | .spinup => s
  | .halt => s
  | .recover => s

/-! ## Aborting a set with a record (R15, R34) -/

/-- The set's state after an abort (the table of R15). -/
def abortedState : SetState → SetState
  | .announcing => .fed
  | .recovering => .fed
  | .fed => .fed
  | .diverting => .diverting
  | .packing => .packing

/-- A TENTATIVE record of the set becomes a VOID record (R15, R43). -/
def voidRec (k : SetKey) (r : PathRec) : PathRec :=
  if r.kind = .tentative ∧ r.of k = true then { r with tag := 0, kind := .void, route := .purge, reason := some .void }
  else r

/-- The set is marked ABORTED with its entries and TENTATIVE records VOID (R15, R34), and the removal, drain and close
condition tests follow (R16, R92, R101). -/
def abortRecord (k : SetKey) (s : State) : State :=
  let s := modSet k (fun q => { q with aborted := true, state := abortedState q.state }) s
  let s := { s with queue := s.queue.map (fun e => if e.sheet.key = k then { e with void := true } else e) }
  let s := modTracker (fun t => { t with path := t.path.map (voidRec k) }) s
  closeTestOf k (drainTest k (removalTest k s))

/-! ## Timers (R36, R37, R41) -/

/-- ENTRY_LATE (R36): the head becomes LATE with an Entry Late notice, once for each window start. -/
def execEntryLate (s : State) : Result :=
  .next (
    match s.queue, s.window with
    | e :: es, some w =>
      if !e.late && reached s.now (after w s.wEntry) then
        notify (.entryLate e.tag e.sheet.key e.sheet.page w) { s with queue := { e with late := true } :: es }
      else s
    | _, _ => s)

/-- SHEET_MISSING (R37): the head and every entry behind it are removed, and one Sheet Missing notice is sent. -/
def execSheetMissing (s : State) : Result :=
  .next (
    match s.queue, s.window with
    | e :: es, some w =>
      if reached s.now (after w (2 * s.wEntry)) then
        notify (.sheetMissing e.tag (es.length + 1)) (removeFrom 0 s)
      else s
    | _, _ => s)

/-- GUARD_END (R41): the guard ends. -/
def execGuardEnd (s : State) : Result := .next (if expired s.now s.guard then { s with guard := none } else s)

end Sys2Proof.Machine
end

