-- ==== Sys2Proof/Machine/Operands.lean ====
section
/-! DEFINITION. The fields of the request payloads (11.3) and the decoding of their codes (11.1, R179): a code not listed
decodes to nothing. -/

namespace Sys2Proof.Machine

/-- The one-byte field at place `i`. -/
def field (p : List Byte) (i : Nat) : Nat := (p.getD i 0).toNat

/-- The little-endian field of `n` bytes at place `i`. -/
def fieldLe (p : List Byte) (i n : Nat) : Nat := ofLe ((p.drop i).take n)

/-- A run field: 0..15. -/
def runOf (v : Nat) : Option (Fin 16) := if h : v < 16 then some ⟨v, h⟩ else none

/-- A bin field: 0..23. -/
def binOf (v : Nat) : Option (Fin 24) := if h : v < 24 then some ⟨v, h⟩ else none

def patternOf : Nat → Option Pattern
  | 0 => some .none | 1 => some .corner | 2 => some .edge2 | _ => none

def yesNoOf : Nat → Option Bool
  | 0 => some false | 1 => some true | _ => none

def fillOrderOf : Nat → Option FillOrder
  | 0 => some .ascending | 1 => some .descending | _ => none

def policyOf : Nat → Option Policy
  | 0 => some .keepPartial | 1 => some .wholeSet | _ => none

def offsetModeOf : Nat → Option OffsetMode
  | 0 => some .alternate | 1 => some .none | _ => none

/-- A compiler named by a Compiler Service: A or B, not none (R117). -/
def compilerOf : Nat → Option CompilerId
  | 1 => some .a | 2 => some .b | _ => none

/-- Service actions (11.1). -/
inductive ServiceAction where
  | out | in_
  deriving DecidableEq, Repr

def actionOf : Nat → Option ServiceAction
  | 0 => some .out | 1 => some .in_ | _ => none

/-- Restart kinds (11.1). -/
inductive RestartKind where
  | full | path
  deriving DecidableEq, Repr

def restartKindOf : Nat → Option RestartKind
  | 0 => some .full | 1 => some .path | _ => none

/-- Tables of Read Table (11.1). -/
inductive TableCode where
  | queue | path | sets | runs | bins | binPackets
  deriving DecidableEq, Repr

def tableOf : Nat → Option TableCode
  | 1 => some .queue | 2 => some .path | 3 => some .sets | 4 => some .runs | 5 => some .bins | 6 => some .binPackets
  | _ => none

/-- A printable label character (R2). -/
def printable (b : Byte) : Bool := decide (0x20 ≤ b.toNat) && decide (b.toNat ≤ 0x7E)

/-- The fields of an Open Run whose every field is in its values (R2 check 1): the new run's id and record (R2). -/
def openRunFields (p : List Byte) : Option (Fin 16 × Run) := do
  let r ← runOf (field p 0)
  let label := (p.drop 1).take 8
  let pattern ← patternOf (field p 10)
  let requireStaple ← yesNoOf (field p 11)
  let order ← fillOrderOf (field p 15)
  let policy ← policyOf (field p 16)
  let offset ← offsetModeOf (field p 17)
  if label.all printable && field p 9 != 0 && fieldLe p 12 3 != 0 then
    some (r,
      { label := label, declared := field p 9, pattern := pattern, requireStaple := requireStaple,
        mask := BitVec.ofNat 24 (fieldLe p 12 3), order := order, policy := policy, offset := offset,
        active := none, owned := [], delivered := 0, aborted := 0, done := 0, nextSide := .left, state := .opened })
  else none

/-- The fields of an Announce that are in range (R27, R179): tag, sheet and REPRINT. -/
def announceFields (p : List Byte) : Option (Nat × Sheet × Bool) := do
  let r ← runOf (field p 2)
  let tag := fieldLe p 0 2
  let length := fieldLe p 7 2
  let flags := field p 9
  if tag != 0 && field p 3 != 0 && decide (1 ≤ field p 4) && decide (field p 4 ≤ field p 5) &&
      decide (field p 5 ≤ 60) && decide (field p 6 ≤ 7) && decide (100 ≤ length) && decide (length ≤ 432) &&
      decide (flags ≤ 1) then
    some (tag,
      { key := { run := r, set := field p 3 }, page := field p 4, pages := field p 5, media := field p 6,
        length := length },
      flags == 1)
  else none

end Sys2Proof.Machine
end

