-- ==== Sys2Proof/Machine/Tables.lean ====
section
/-! DEFINITION. What the host reads of the part's state: the Read Table records (R167, 11.5) and the Status body (R166,
11.6). -/

namespace Sys2Proof.Machine

/-! ## Read Table records (11.5) -/

/-- The fields run, set of a set's name. -/
def SetKey.bytes (k : SetKey) : List Byte := [byte k.run.val, byte k.set]

/-- A QUEUE record. -/
def Entry.bytes (e : Entry) : List Byte :=
  le 2 e.tag ++ e.sheet.key.bytes ++ [byte e.sheet.page, byte e.sheet.pages, byte e.sheet.media] ++ le 2 e.sheet.length ++
    [byte e.flagBits]

/-- An offset field: ticks after the record's S0 lead, 0xFFFFFF for 16,777,215 or more (11.1, R179). -/
def offsetBytes (s0 t : Tick) : List Byte := le 3 (min 0xFFFFFF (t - s0).toNat)

/-- An offset field of a time that may be absent: 0 when it is. -/
def offsetOrZero (s0 : Tick) : Option Tick → List Byte
  | none => zeros 3
  | some t => offsetBytes s0 t

/-- The sensor code of a deadline in four bits, 0xF when it is absent (11.5). -/
def deadlineSensor (d : Option Deadline) : Nat := ((d.map (fun d => sensorCode d.sensor)).getD 15)

/-- The presence field: bit 2i lead seen, bit 2i + 1 clear seen, for the i-th sensor of the route (11.5). -/
def PathRec.presence (r : PathRec) : Nat :=
  bitsOf (r.route.sensors.flatMap (fun x => [(r.lead.get x).isSome, (r.clear.get x).isSome]))

/-- A PATH record (11.5). -/
def PathRec.bytes (r : PathRec) : List Byte :=
  let s0 := r.lead.s0.getD 0
  le 2 r.tag ++ [byte r.kind.code] ++ sheetBytes r.sheet ++ le 2 ((r.sheet.map (·.length)).getD 0) ++
    [byte ((r.sheet.map (·.media)).getD 255), byte r.route.code, byte (reasonCodeOfDivert r.reason),
     byte (bitsOf [r.slip, r.parked]), byte (16 * deadlineSensor r.leadDl + deadlineSensor r.clearDl)] ++
    offsetOrZero s0 (r.leadDl.map (·.at_)) ++ offsetOrZero s0 (r.clearDl.map (·.at_)) ++ le 2 r.presence ++ leTick s0 ++
    offsetOrZero s0 r.clear.s0 ++
    (r.route.sensors.drop 1).flatMap (fun x => offsetOrZero s0 (r.lead.get x) ++ offsetOrZero s0 (r.clear.get x))

/-- A SETS record (11.5). -/
def SetRec.bytes (slot : Nat) (q : SetRec) : List Byte :=
  [byte slot] ++ q.key.bytes ++
    [byte q.pages, byte q.next, byte q.announced, byte q.confirmed, byte q.inCompiler,
     byte (compilerCode (q.assigned.map (·.1))), byte ((q.assigned.map (fun a => a.2.code)).getD 0)] ++
    le 2 q.thickness ++
    [byte (bitsOf [q.aborted, q.reprinted]), byte (q.divertPage.getD 0), byte q.state.code]

/-- A RUNS record (11.5). -/
def Run.bytes (id : Nat) (r : Run) : List Byte :=
  [byte id] ++ r.label ++ [byte r.declared, byte r.pattern.code, byte (bitsOf [r.requireStaple])] ++ le 3 r.mask.toNat ++
    [byte r.order.code, byte r.policy.code, byte r.offset.code, byte (binCode r.active), byte r.state.code,
     byte r.delivered, byte r.aborted, byte r.nextSide.code] ++
    le 32 r.done.toNat ++ [byte r.owned.length] ++ r.owned.map (fun b => byte b.val)

/-- Eight spaces: the label of a bin with no owner (R134, R137). -/
def blankLabel : List Byte := List.replicate 8 0x20

/-- The label of a bin's owner run (R134, R137). -/
def ownerLabel (s : State) (owner : Option (Fin 16)) : List Byte :=
  ((owner.bind s.getRun).map (·.label)).getD blankLabel

/-- A BINS record (11.5). -/
def binBytes (s : State) (b : Fin 24) : List Byte :=
  let q := s.getBin b
  [byte b.val, byte q.state.code, byte (runCode q.owner)] ++ ownerLabel s q.owner ++ le 4 q.height ++
    le 4 (s.binCapacity b) ++
    [byte q.packets.length,
     byte (if q.state = .opened then (q.preOpen.map (·.code)).getD 255 else 255), byte (bitsOf [q.door, q.paper])]

/-- A list of records with their positions. -/
def indexed (rs : List (List Byte)) : List (Nat × List Byte) := rs.zipIdx.map (fun p => (p.2, p.1))

/-- The occupied places of a table, each with its index. -/
def occupied {α : Type} (f : Nat → α → List Byte) (t : List (Option α)) : List (Nat × List Byte) :=
  t.zipIdx.filterMap (fun p => p.1.map (fun a => (p.2, f p.2 a)))

/-- A table's records, each with its index, in index order; empty places are skipped (R167). -/
def tableRecords (s : State) (bin : Nat) : TableCode → List (Nat × List Byte)
  | .queue => indexed (s.queue.map Entry.bytes)
  | .path => indexed (s.tracker.path.map PathRec.bytes)
  | .sets => occupied SetRec.bytes s.sets
  | .runs => occupied Run.bytes s.runs
  | .bins => indexed (allBins.map (binBytes s))
  | .binPackets => indexed ((s.bins.getD bin Bin.initial).packets.map Packet.bytes)

/-- A table's last index (R167). -/
def TableCode.lastIndex : TableCode → Nat
  | .queue => 7 | .path => 11 | .sets => 31 | .runs => 15 | .bins => 23 | .binPackets => 39

/-- The table's code (11.1). -/
def TableCode.code : TableCode → Nat
  | .queue => 1 | .path => 2 | .sets => 3 | .runs => 4 | .bins => 5 | .binPackets => 6

/-- The records taken from a list under a count and a room in bytes: the first that does not fit ends it (R167). -/
def takeRecords : Nat → Nat → List (Nat × List Byte) → List (Nat × List Byte)
  | 0, _, _ => []
  | _ + 1, _, [] => []
  | n + 1, room, r :: rs => if r.2.length ≤ room then r :: takeRecords n (room - r.2.length) rs else []

/-- The records from a start index, and the next index: the one after the last record returned, END (0xFF) when no record
lies beyond it or none is returned (R167). -/
def readRecords (rs : List (Nat × List Byte)) (start count : Nat) : List Byte × Nat :=
  let from_ := rs.dropWhile (fun r => decide (r.1 < start))
  let got := takeRecords count Config.tableBytes from_
  let next :=
    match got.getLast? with
    | none => 0xFF
    | some r => if got.length < from_.length then r.1 + 1 else 0xFF
  (got.flatMap (·.2), next)

/-! ## Status (R166, 11.6) -/

/-- A stapler's sub-state code: READY, LOW, EMPTY or FAULT (R109, 11.1). -/
def Compiler.staplerCode (c : Compiler) : Nat :=
  if c.fault then 3 else if c.staples = 0 then 2 else if c.staples ≤ c.threshold then 1 else 0

/-- The run and set fields of a set that may be absent. -/
def keyBytes : Option SetKey → List Byte
  | none => [255, 0]
  | some k => k.bytes

/-- The sequence field of a packet that may be absent. -/
def seqBytes (p : Option Packet) : List Byte := le 2 ((p.map (·.seq.toNat)).getD 0)

/-- A compiler's block of the Status body (11.6). -/
def Compiler.bytes (c : Compiler) : List Byte :=
  [byte c.state.code, byte (bitsOf [c.outPending, c.paper, c.cycleMark, c.packet.isSome])] ++ keyBytes c.current ++
    keyBytes c.reserved ++ [byte c.count] ++ le 2 c.thickness ++ seqBytes c.packet ++ [byte c.staplerCode] ++ le 2 c.staples

/-- The leaving conditions (R70): causes empty, sensors uncovered, CLEAR_WAIT papers absent. -/
def leavingBits (s : State) : Nat :=
  bitsOf [s.tracker.causes.isEmpty, uncovered s.tracker.readings, clearWaitEmpty s]

/-- The flags byte of the queue, purge and pace items (11.6). -/
def statusFlags (s : State) : Nat :=
  let c := paceConditions s
  bitsOf [decide (0 < s.placesHeld), s.trayFull, s.router.held, c.noCompiler, c.purgeFull, c.noTarget]

/-- The shuttle's items of the Status body (11.6). -/
def Shuttle.bytes (h : Shuttle) : List Byte :=
  [byte h.state.code, byte h.level, byte (targetCode h.target)] ++ seqBytes h.packet ++
    [byte (bitsOf [h.packet.isSome, h.waiting, h.suspended, h.cycleMark, h.reachedMark, h.home, h.free.isSome])] ++
    leTick (h.free.getD 0)

/-- The shelf's items of the Status body (11.6). -/
def shelfBytes (s : State) : List Byte :=
  le 4 s.shelf.height ++ le 2 s.shelf.count ++ le 4 s.shelfCapacity ++ [byte (bitsOf [s.shelf.fullMark, s.shelf.readsEmpty])]

/-- The Status reply body, 68 bytes (11.6). -/
def statusBytes (s : State) : List Byte :=
  [byte s.tracker.transport.code, byte s.tracker.causes.bits, byte (leavingBits s),
   byte (bitsOf (allSensors.map s.tracker.readings.get)), byte s.credits, byte s.queue.length, byte (statusFlags s)] ++
    le 2 s.tracker.purgeCount ++ [byte s.buffer.length] ++ s.compA.bytes ++ s.compB.bytes ++ s.shuttle.bytes ++
    shelfBytes s ++
    [byte (bitsOf [s.recovery.isSome]), byte ((s.recovery.map (·.entries.length)).getD 0)] ++ leTick s.now ++
    [byte (bitsOf s.profileMarks), byte (bitsOf [s.link.strapMismatch, s.link.lost]), s.link.counter]

end Sys2Proof.Machine
end

