-- ==== Sys2Proof/Machine/Bins.lean ====
section
/-! DEFINITION. Doors, paper and service of the mailbox bins (7.7, 7.8): the meanings of the bin events and the owner's part of
Bin Service. -/

namespace Sys2Proof.Machine

/-- A bin's owner run is OPEN. -/
def ownerOpen (s : State) (b : Fin 24) : Bool := (s.getBin b).owner.any (fun r => s.runHas r (fun q => q.state == .opened))

/-- A bin's state is set; a bin that becomes FREE or OWNED runs an arbitration (R122, R137, R139). -/
def settleBin (b : Fin 24) (st : BinState) (s : State) : State :=
  let s := modBin b (fun q => { q with state := st }) s
  if st = .free ∨ st = .owned then targetEvent s else s

/-- A bin given up by its run, if it has one, in the state `st` (R135). -/
def settleReleased (b : Fin 24) (st : BinState) (s : State) : State :=
  if (s.getBin b).owner.isSome then releaseBin b st s else settleBin b st s

/-! ## Doors (R136, R137) -/

/-- The level of a bin door's input. -/
def Pins.setDoor (b : Fin 24) (v : Bool) (p : Pins) : Pins := { p with doors := p.doors.set b.val v }

/-- The level of a bin's paper input. -/
def Pins.setBinPaper (b : Fin 24) (v : Bool) (p : Pins) : Pins := { p with binPapers := p.binPapers.set b.val v }

/-- A door opens (R136). -/
def Bin.openDoor (q : Bin) : Bin :=
  if q.state = .opened then { q with door := true }
  else { q with door := true, preOpen := some q.state, state := .opened }

/-- BIN_DOOR_OPEN (R136). -/
def execBinDoorOpen (b : Fin 24) (s : State) : Result :=
  .next (takeEvent (Pins.setDoor b true) (modBin b Bin.openDoor) s)

/-- The new state of a collected bin with pre-open state `pre` (the table of R137). -/
def settleCollected (b : Fin 24) (pre : BinState) (s : State) : State :=
  match pre with
  | .out => if ownerOpen s b then settleBin b .out s else settleReleased b .out s
  | .owned => if ownerOpen s b then settleBin b .owned s else settleReleased b .free s
  | .full => if ownerOpen s b then settleBin b .owned s else settleReleased b .free s
  | .free => settleReleased b .free s
  | .held => settleReleased b .free s
  | .opened => s

/-- A door closes on an OPEN bin with no paper: the bin is collected (R137). -/
def collect (b : Fin 24) (pre : BinState) (s : State) : State :=
  let q := s.getBin b
  let s := modBin b (fun q => { q with packets := [], preOpen := none }) s
  let s := notify (.binCollected b (ownerLabel s q.owner) q.packets.length) s
  settleCollected b pre s

/-- A door closes on an OPEN bin with paper in it: the pre-open state is restored, FREE becoming HELD (R137). -/
def restoreBin (b : Fin 24) (pre : BinState) (s : State) : State :=
  settleBin b (if pre = .free then .held else pre) (modBin b (fun q => { q with preOpen := none }) s)

/-- A door closes (R137). A bin that is not OPEN takes the reading only (log 30). -/
def closeDoor (b : Fin 24) (s : State) : State :=
  let s := modBin b (fun q => { q with door := false }) s
  let q := s.getBin b
  match q.preOpen with
  | none => s
  | some pre =>
    if q.state = .opened then
      if q.paper then restoreBin b pre s else collect b pre s
    else s

/-- BIN_DOOR_CLOSE (R137). -/
def execBinDoorClose (b : Fin 24) (s : State) : Result := .next (takeEvent (Pins.setDoor b false) (closeDoor b) s)

/-- BIN_PAPER_PRESENT (R138): changes the reading. -/
def execBinPaperPresent (b : Fin 24) (s : State) : Result :=
  .next (takeEvent (Pins.setBinPaper b true) (modBin b (fun q => { q with paper := true })) s)

/-- BIN_PAPER_ABSENT (R138): changes the reading. -/
def execBinPaperAbsent (b : Fin 24) (s : State) : Result :=
  .next (takeEvent (Pins.setBinPaper b false) (modBin b (fun q => { q with paper := false })) s)

/-! ## Bin Service (R139) -/

/-- OUT on one bin (R139). -/
def Bin.takeOut (q : Bin) : Bin :=
  match q.state with
  | .opened => { q with preOpen := some .out }
  | .out => q
  | .free => { q with state := .out }
  | .owned => { q with state := .out }
  | .full => { q with state := .out }
  | .held => { q with state := .out }

/-- What IN decides for a bin from its owner, list and paper reading (R139), and whether the bin is released. -/
def inResult (s : State) (b : Fin 24) : BinState × Bool :=
  let q := s.getBin b
  if q.owner.isNone then (if q.paper then .held else .free, false)
  else if ownerOpen s b then
    (if decide (q.height < s.binCapacity b) && decide (q.packets.length < Config.binPackets) then .owned else .full, false)
  else if q.packets.isEmpty then (.free, true)
  else (.full, false)

/-- A release of a bin that stays OPEN: the owner is cleared and the run's removal check follows (R135). -/
def releaseOpen (b : Fin 24) (s : State) : State :=
  match (s.getBin b).owner with
  | none => s
  | some r => removeRunTest r (disown b s)

/-- IN on one bin (R139): an OUT bin takes the decided state, an OPEN bin with pre-open state OUT takes it as its pre-open
state; a bin in any other state is unchanged. -/
def bringIn (b : Fin 24) (s : State) : State :=
  let q := s.getBin b
  let d := inResult s b
  if q.state = .out then if d.2 then releaseBin b d.1 s else settleBin b d.1 s
  else if q.state = .opened ∧ q.preOpen = some .out then
    modBin b (fun q => { q with preOpen := some d.1 }) (if d.2 then releaseOpen b s else s)
  else s

/-- The action on one bin, and whether its state or pre-open state changed (R139). Only what this bin's own turn changes in it is
counted: no rule says whether a bin that an arbitration of the service claims or marks FULL counts (DESIGN CHOICE, log 57). -/
def serveBin (a : ServiceAction) (b : Fin 24) (s : State) : State × Nat :=
  let q := s.getBin b
  let s := match a with
    | .out => modBin b Bin.takeOut s
    | .in_ => bringIn b s
  let q' := s.getBin b
  (s, if q'.state = q.state ∧ q'.preOpen = q.preOpen then 0 else 1)

/-- The action on each named bin in ascending order, with the number of bins changed (R139). -/
def serveBins (a : ServiceAction) : List (Fin 24) → State → State × Nat
  | [], s => (s, 0)
  | b :: bs, s =>
    let r := serveBin a b s
    let rest := serveBins a bs r.1
    (rest.1, r.2 + rest.2)

end Sys2Proof.Machine
end

