-- ==== Sys2Proof/Machine/Path.lean ====
section
/-! DEFINITION. The meanings of the sheet path, cover and transport timer commands (02, 04, 05). -/

namespace Sys2Proof.Machine

/-- S0_LEAD (R42). -/
def execS0Lead (s : State) : Result := .next (takeEvent (Pins.setSensor .s0 true) leadAtS0 s)

/-- S0_CLEAR (R44, R78). -/
def execS0Clear (s : State) : Result := .next (takeEvent (Pins.setSensor .s0 false) (clearEvent .s0 s0ClearRec) s)

/-- SENSOR_LEAD (R76). The row's sensors are S1 to S5B; a lead event at S0 is what R42 says. -/
def execSensorLead (x : Sensor) (s : State) : Result :=
  .next (takeEvent (Pins.setSensor x true) (if x = .s0 then leadAtS0 else leadAt x) s)

/-- SENSOR_CLEAR (R78). The row's sensors are S1 to S5B; a clear event at S0 is what R44 says. -/
def execSensorClear (x : Sensor) (s : State) : Result :=
  .next (takeEvent (Pins.setSensor x false) (clearEvent x (if x = .s0 then s0ClearRec else clearOfRec x)) s)

/-- The level of a FRONT or TOP cover input. -/
def Pins.setCover (c : Cover) (v : Bool) (p : Pins) : Pins :=
  match c with
  | .front => { p with front := v }
  | .top => { p with top := v }

/-- The cause of a cover (R68). -/
def coverCause : Cover → HaltCause
  | .front => .coverFront
  | .top => .coverTop

/-- The name of a cover in its notices (11.7). -/
def coverName : Cover → CoverName
  | .front => .front
  | .top => .top

/-- A cover opening (R69, R67): the halt, or the cause in HALT, with the Cover notice; a FRONT opening then suspends the
compilers (R112, log 25). -/
def openCover (c : Cover) (s : State) : State :=
  let s := halt (coverCause c) none (.cover (coverName c) true) s
  match c with
  | .front => modComp .b Compiler.suspend (modComp .a Compiler.suspend s)
  | .top => s

/-- COVER_OPEN (R69). -/
def execCoverOpen (c : Cover) (s : State) : Result := .next (takeEvent (Pins.setCover c true) (openCover c) s)

/-- The causes a closing removes (R68, R69). -/
def CauseSet.closed (c : CauseSet) : Cover → CauseSet
  | .front => { c with coverFront := false }
  | .top => { c with coverTop := false, purgeFull := false }

/-- The purge tray is taken as emptied at a TOP closing (R82, R69); a change from full is followed by the pace test (R88). -/
def emptyTray (s : State) : State :=
  let was := s.trayFull
  let s := modTracker (fun t => { t with purgeCount := 0 }) s
  if was == s.trayFull then s else paceTest s

/-- A cover closing (R69): the Cover notice, the causes removed, the JAM test, the compilers restarted by FRONT (R113), the
tray emptied by TOP, and the leaving test (log 25). -/
def closeCover (c : Cover) (s : State) : State :=
  let s := notify (.cover (coverName c) false) s
  let s := jamTest (modTracker (fun t => { t with causes := t.causes.closed c }) s)
  let s := match c with
    | .front => resumeCompiler .b (resumeCompiler .a s)
    | .top => emptyTray s
  leaveTest s

/-- COVER_CLOSE (R69). -/
def execCoverClose (c : Cover) (s : State) : Result := .next (takeEvent (Pins.setCover c false) (closeCover c) s)

/-- SPINUP_END (R65): RUN, the Ready notice, the head window, and the idle timer when nothing is on its way (R66). -/
def execSpinupEnd (s : State) : Result :=
  .next (
    if expired s.now s.tracker.spinup then
      idleTest (startWindow (notify .ready (modTracker (fun t => { t with transport := .run, spinup := none }) s)))
    else s)

/-- IDLE_EXPIRY (R66): OFF; the withdraw guard and the spacing timer stop (R41, R96). -/
def execIdleExpiry (s : State) : Result :=
  .next (
    if expired s.now s.tracker.idle then
      { s with
        tracker := { s.tracker with transport := .off, idle := none },
        router := { s.router with spacing := none },
        guard := none }
    else s)

/-- SLIP_STAGE (R53): at the lead deadline plus T_slip the slip flag is set and a Slip notice is sent once. -/
def execSlipStage (i : Nat) (s : State) : Result :=
  .next (
    match (s.tracker.path[i]?).bind (fun r => r.leadDl.map (fun d => (r, d))) with
    | none => s
    | some (r, d) =>
      if !r.slip && reached s.now (after d.at_ s.tSlip) then
        notify (.slip r.tag d.sensor d.at_) (modRec i (fun r => { r with slip := true }) s)
      else s)

/-- LATE_JAM_STAGE (R53): at the lead deadline plus T_jam a LATE jam is declared. -/
def execLateJamStage (i : Nat) (s : State) : Result :=
  .next (
    match (s.tracker.path[i]?).bind (fun r => r.leadDl.map (fun d => (r, d))) with
    | none => s
    | some (r, d) => if reached s.now (after d.at_ s.tJam) then jamOfRecord .late d.sensor r (some d.at_) s else s)

/-- CLEAR_DEADLINE_EXPIRY (R55): a STAY jam at the watched sensor. -/
def execClearDeadlineExpiry (i : Nat) (s : State) : Result :=
  .next (
    match (s.tracker.path[i]?).bind (fun r => r.clearDl.map (fun d => (r, d))) with
    | none => s
    | some (r, d) => if reached s.now d.at_ then jamOfRecord .stay d.sensor r (some d.at_) s else s)

/-- RELEASE_SPACING_END (R96): the timer stops and the release test is made for the new head, with no pace test (DEDUCED,
log 19). -/
def execReleaseSpacingEnd (s : State) : Result :=
  .next (
    if expired s.now s.router.spacing then releaseTest (modRouter (fun r => { r with spacing := none }) s) else s)

end Sys2Proof.Machine
end

