-- ==== Sys2Proof/Machine/Startup.lean ====
section
/-! DEFINITION. Power-on, the end of the profile load and the two restarts (R63, R98, R120, R134, R141, R169, R176 to R178). -/

namespace Sys2Proof.Machine

/-! ## Staging from the image (R176, R178) -/

/-- The loaded values of some groups become staged, and their Status marks are set or cleared (steps 1 and 2 of R176 and
R178). -/
def loadGroups (gs : List Group) (s : State) : State :=
  gs.foldl (fun s g =>
    { stageLoaded g s with
      profileMarks := s.profileMarks.set (g.code - 1) (profileCause s.image g != .none) }) s

/-- The five causes of a Profile Fault notice: those of the groups judged, NONE for the others (R176, R178). -/
def faultCauses (gs : List Group) (s : State) : List ProfileCause :=
  allGroups.map (fun g => if gs.contains g then profileCause s.image g else .none)

/-- The Profile Fault notice, when a judged group is bad (step 3 of R176 and R178). -/
def profileFaultNotice (gs : List Group) (s : State) : State :=
  if (faultCauses gs s).any (fun c => c != .none) then notify (.profileFault (faultCauses gs s)) s else s

/-! ## The blocks come up (step 5 of R176) -/

/-- A compiler at start-up (R98): COMPILE latched, CLEAR_WAIT or EMPTY by the paper input, the count by the cartridge
input. -/
def Compiler.start (latched : List Nat) (paper cart : Bool) : Compiler :=
  { Compiler.initial with
    latched := latched, paper := paper, state := if paper then .clearWait else .empty,
    staples := if cart then latched.getD 5 0 else 0 }

/-- The shuttle at start-up (R120): DOCKED or FAULT by the home input, suspended by the TOWER cover input. -/
def Shuttle.start (home tower : Bool) : Shuttle :=
  { Shuttle.initial with
    home := home, suspended := tower, state := if home then .docked else .fault, cycleMark := !home && tower }

/-- A bin at start-up (R134): HELD or FREE by the paper reading, OPEN with that pre-open state by the door reading. -/
def Bin.start (door paper : Bool) : Bin :=
  let st : BinState := if paper then .held else .free
  { owner := none, packets := [], door := door, paper := paper,
    state := if door then .opened else st, preOpen := if door then some st else none }

/-- The 24 bins at start-up from their input levels. -/
def startBins (p : Pins) : List Bin :=
  allBins.map (fun b => Bin.start (p.doors.getD b.val false) (p.binPapers.getD b.val false))

/-- The blocks come up in their power-on states, reading their inputs at this moment (R176). -/
def startBlocks (s : State) : State :=
  let p := s.pins
  { s with
    compA := Compiler.start s.staged.compile p.compPaperA p.cartA,
    compB := Compiler.start s.staged.compile p.compPaperB p.cartB,
    shuttle := Shuttle.start p.home p.tower,
    shelf := { height := 0, count := 0, fullMark := !p.shelfEmpty, readsEmpty := p.shelfEmpty },
    bins := startBins p,
    latched := { s.latched with delivery := s.staged.delivery },
    tracker := { s.tracker with readings := p.sensors } }

/-- The power-on check (R63): each open cover gives its cause and a covered sensor an UNEXPECTED jam at the first covered. -/
def powerOnCheck (s : State) : State :=
  let s := if s.pins.front then halt .coverFront none (.cover .front true) s else s
  let s := if s.pins.top then halt .coverTop none (.cover .top true) s else s
  match allSensors.find? s.tracker.readings.get with
  | none => s
  | some x => jamAtSensor .unexpected x s

/-- The end of the profile load (R176; the mask is in force before the first notice, log 9). -/
def endLoad (s : State) : State :=
  let s := latchMask (loadGroups allGroups { s with loading := false })
  let s := latchPathMedia (profileFaultNotice allGroups s)
  paceTest (powerOnCheck (startBlocks s))

/-- PROFILE_LOAD_END (R176): only while a load runs. -/
def execProfileLoadEnd (s : State) : Result := .next (if s.loading then endLoad s else s)

/-- RESET_RELEASE (R169): a power-on, with the profile load just begun. The inputs, the configuration memory and the commands
that wait are outside the part's reset. -/
def execResetRelease (s : State) : Result := .next (State.powerOn s.pins s.image s.pending)

/-- The reply of an accepted Restart FULL, and every reply ahead of it, has been sent but for the frame that is ending (R169,
R177). -/
def restartDue (s : State) : Bool := s.link.restartWait && s.link.replies.isEmpty && s.link.wire.isSome

/-- A Restart FULL takes effect: every block returns to its power-on state and the load begins (R169, R177). -/
def restartFullNow (s : State) : State := State.powerOn s.pins s.image s.pending

/-- RESTART_FULL_TAKE_EFFECT (R169, R177): at the end of the reply's last byte (log 36). -/
def execRestartFullTakeEffect (s : State) : Result := .next (if restartDue s then restartFullNow s else s)

/-- The last byte of a frame has been sent (R165): a Restart FULL that waited for it takes effect (R169), else the arbiter
chooses the next frame. -/
def frameSent (s : State) : State :=
  if restartDue s then restartFullNow s
  else if s.link.wire.isNone then s
  else modLink Link.sendNext s

/-- TX_FRAME_END (R165). -/
def execTxFrameEnd (s : State) : Result := .next (frameSent s)

/-- An accepted Restart PATH (R178). -/
def restartPathNow (s : State) : State :=
  let gs : List Group := [.path, .media]
  latchPathMedia (profileFaultNotice gs (loadGroups gs s))

end Sys2Proof.Machine
end

