-- ==== Sys2Proof/Machine/Owners.lean ====
section
/-! DEFINITION. The owners of the fifteen requests (step 4 of R161): each checks the fields, acts or refuses, and gives the
status, reason and body of the reply (11.4). Refused bodies are those of the kind with figures not named sent as 0
(R179, log 15). -/

namespace Sys2Proof.Machine

/-- What an owner answers. -/
structure Answer where
  status : ReplyStatus
  reason : Option Reason
  body : List Byte
  deriving DecidableEq, Repr

/-- An OK answer. -/
def okAnswer (body : List Byte) : Answer := { status := .ok, reason := none, body := body }

/-- A refusal. -/
def refusal (r : Reason) (body : List Byte) : Answer := { status := .refused, reason := some r, body := body }

/-- The owner of a request: the payload and the state give the state after and the answer. -/
abbrev Owner := List Byte → State → State × Answer

/-! ## Runs and sets (01) -/

/-- The claim of Open Run (R3) and the arbitration of a bin that became OWNED (R122). -/
def openClaim (r : Fin 16) (run : Run) (s : State) : State :=
  match firstBin run (fun b => (s.getBin b).state == .free) with
  | none => s
  | some b => targetEvent (claim r b s)

/-- Open Run (R2, R3). -/
def ownOpenRun : Owner := fun p s =>
  match openRunFields p with
  | none => (s, refusal .badField (zeros 1))
  | some (r, run) =>
    if (s.getRun r).isSome then (s, refusal .runInUse (zeros 1))
    else
      let s := openClaim r run (setRun r (some run) s)
      (s, okAnswer [byte (binCode (s.activeBin r))])

/-- An accepted Abort Run (R4): ABORTED, each set record in slot order, then the checks of R6 and R7. -/
def abortRunNow (r : Fin 16) (s : State) : State :=
  let s := modRun r (fun q => { q with state := .aborted }) s
  let keys := (s.setRecs.filter (fun q => q.key.run == r)).map (·.key)
  finishChecks r (keys.foldl (fun s k => abortRecord k s) s)

/-- Abort Run (R4). -/
def ownAbortRun : Owner := fun p s =>
  match runOf (field p 0) with
  | none => (s, refusal .badField [])
  | some r =>
    match s.getRun r with
    | none => (s, refusal .unknownRun [])
    | some q => if q.state = .opened then (abortRunNow r s, okAnswer []) else (s, refusal .runNotOpen [])

/-- A set number is finished or outside the run (R10, R14). -/
def setFinished (s : State) (q : Run) (k : SetKey) : Bool :=
  decide (q.declared < k.set) || q.isDone k.set || (s.getSet k).any (·.aborted)

/-- An accepted Abort Set (R14, R15) with its disposition: CLOSED 0, PENDING 1. -/
def abortSetNow (k : SetKey) (s : State) : State × Answer :=
  match s.getSet k with
  | none => (countFinished k (fun r => { r with aborted := r.aborted + 1 }) s, okAnswer [0])
  | some _ =>
    let s := abortRecord k s
    (s, okAnswer [byte (bitsOf [(s.getSet k).isSome])])

/-- Abort Set (R14, R15). -/
def ownAbortSet : Owner := fun p s =>
  match runOf (field p 0) with
  | none => (s, refusal .badField (zeros 1))
  | some r =>
    let k : SetKey := { run := r, set := field p 1 }
    if k.set = 0 then (s, refusal .badField (zeros 1))
    else
      match s.getRun r with
      | none => (s, refusal .unknownRun (zeros 1))
      | some q =>
        if q.state ≠ .opened then (s, refusal .runNotOpen (zeros 1))
        else if setFinished s q k then (s, refusal .setDone (zeros 1))
        else abortSetNow k s

/-! ## Announce and Withdraw (02) -/

/-- Another set of the part is ANNOUNCING (R10). -/
def otherAnnouncing (s : State) (k : SetKey) : Bool := s.setRecs.any (fun q => q.key != k && q.state == .announcing)

/-- Step 1 of R28: the run has a record and is OPEN. -/
def runRefusal (s : State) (k : SetKey) : Option Reason :=
  match s.getRun k.run with
  | none => some .unknownRun
  | some q => if q.state = .opened then none else some .runNotOpen

/-- Step 2 of R28: the set is one of the run's and not finished. -/
def doneRefusal (s : State) (k : SetKey) : Option Reason :=
  match s.getRun k.run with
  | none => none
  | some q => if setFinished s q k then some .setDone else none

/-- Step 3 of R28, contiguity: SET_INTERLEAVED before OUT_OF_ORDER before PAGES_MISMATCH (R10). -/
def contiguityRefusal (s : State) (sh : Sheet) : Option Reason :=
  match s.getSet sh.key with
  | none => if otherAnnouncing s sh.key then some .setInterleaved else if sh.page ≠ 1 then some .outOfOrder else none
  | some q =>
    match q.state with
    | .announcing => if sh.page ≠ q.next then some .outOfOrder else if sh.pages ≠ q.pages then some .pagesMismatch else none
    | .recovering =>
      if otherAnnouncing s sh.key then some .setInterleaved
      else if sh.page ≠ q.next then some .outOfOrder
      else if sh.pages ≠ q.pages then some .pagesMismatch
      else none
    | .fed => some .outOfOrder
    | .packing => some .outOfOrder
    | .diverting => none

/-- Step 4 of R28: the set's cumulative thickness stays within 8,000 um (R30). -/
def thicknessRefusal (s : State) (sh : Sheet) : Option Reason :=
  let t := ((s.getSet sh.key).map (·.thickness)).getD 0
  if Config.stackLimit < t + s.mediaThickness sh.media then some .tooThick else none

/-- The tag is held by a queue entry, a path record or a compiler stack (R29). -/
def tagHeld (s : State) (tag : Nat) : Bool :=
  s.queue.any (fun e => e.tag == tag) || s.tracker.path.any (fun r => r.tag == tag) || s.compA.tags.contains tag ||
    s.compB.tags.contains tag

/-- Step 7 of R28: a set with no record needs a free slot (R8). -/
def slotRefusal (s : State) (k : SetKey) : Option Reason :=
  if (s.getSet k).isNone && s.freeSlot.isNone then some .tableFull else none

/-- The transport is in HALT or RECOVER. -/
def State.halted (s : State) : Bool := s.tracker.transport == .halt || s.tracker.transport == .recover

/-- Step 9 of R28: REPRINT is set if and only if the set is RECOVERING. -/
def reprintRefusal (s : State) (k : SetKey) (reprint : Bool) : Option Reason :=
  if reprint == (s.getSet k).any (fun q => q.state == .recovering) then none else some .badField

/-- The ten steps of R28 in order: the first refusal decides. R162 says that a repeated Announce is refused with
DUPLICATE_TAG; by R28's order the usual repeat fails contiguity first and is refused OUT_OF_ORDER. The model follows R28
(DEDUCED, log 44). -/
def announceRefusal (s : State) (tag : Nat) (sh : Sheet) (reprint : Bool) : Option Reason :=
  (runRefusal s sh.key).or <|
  (doneRefusal s sh.key).or <|
  (contiguityRefusal s sh).or <|
  (thicknessRefusal s sh).or <|
  (if tagHeld s tag then some .duplicateTag else none).or <|
  (if Config.queuePlaces ≤ s.queue.length + s.placesHeld then some .queueFull else none).or <|
  (slotRefusal s sh.key).or <|
  (if s.halted then some .halted else none).or <|
  (reprintRefusal s sh.key reprint).or <|
  (if s.isDiverting sh.key then some .diverted else none)

/-- Announce (R27, R28, R31); every reply carries the credits after the request (R26). -/
def ownAnnounce : Owner := fun p s =>
  match announceFields p with
  | none => (s, refusal .badField [byte s.credits])
  | some (tag, sh, reprint) =>
    match announceRefusal s tag sh reprint with
    | some r => (s, refusal r [byte s.credits])
    | none =>
      let s := acceptAnnounce tag sh reprint s
      (s, okAnswer [byte s.credits])

/-- The tag is held by a path record or a compiler stack (step 2 of R39). -/
def tagInMachine (s : State) (tag : Nat) : Bool :=
  s.tracker.path.any (fun r => r.tag == tag) || s.compA.tags.contains tag || s.compB.tags.contains tag

/-- Withdraw (R39, R40). -/
def ownWithdraw : Owner := fun p s =>
  let tag := fieldLe p 0 2
  if tag = 0 then (s, refusal .badField [0, byte s.credits])
  else if tagInMachine s tag then (s, refusal .tooLate [0, byte s.credits])
  else
    match s.queue.findIdx? (fun e => e.tag == tag) with
    | none => (s, refusal .notFound [0, byte s.credits])
    | some i =>
      let n := s.queue.length - i
      let s := removeFrom i s
      (s, okAnswer [byte n, byte s.credits])

/-! ## Recovery (08) -/

/-- The RECOVERING set records (R153). -/
def recoveringSets (s : State) : Nat := s.setRecs.countP (fun q => q.state == .recovering)

/-- Resume (R153). -/
def ownResume : Owner := fun _ s =>
  match s.tracker.transport with
  | .recover =>
    ({ modTracker (fun t => { t with transport := .off }) s with recovery := none }, okAnswer [byte (recoveringSets s)])
  | .halt => (s, refusal .halted (zeros 1))
  | .off => (s, refusal .notFound (zeros 1))
  | .spinup => (s, refusal .notFound (zeros 1))
  | .run => (s, refusal .notFound (zeros 1))

/-- The body of a Recovery Query with a list present (R152). -/
def recoveryBody (l : RecoveryList) (start count : Nat) : List Byte :=
  let got := (l.entries.drop start).take count
  let next := if got.isEmpty ∨ l.entries.length ≤ start + got.length then 0xFF else start + got.length
  [1, byte l.entries.length] ++ l.halt.bytes l.overflow ++ got.flatMap RecoveryEntry.bytes ++ [byte next]

/-- The body of a Recovery Query with no list (R152): NONE, a total of 0, the halt record's fields absent (jam sensor 0xFF, the
others 0: R179, log 15), no entries, END. -/
def noRecoveryBody : List Byte := [0, 0] ++ [0, 0, 0xFF] ++ zeros 5 ++ [0xFF]

/-- Recovery Query (R152). -/
def ownRecoveryQuery : Owner := fun p s =>
  let start := field p 0
  let count := field p 1
  if 31 < start ∨ count = 0 ∨ 8 < count then (s, refusal .badField (zeros 11))
  else
    match s.recovery with
    | none => (s, okAnswer noRecoveryBody)
    | some l => (s, okAnswer (recoveryBody l start count))

/-! ## Tables and Status (09) -/

/-- The answer to a Read Table whose fields pass (R167). -/
def tableAnswer (s : State) (t : TableCode) (bin start count : Nat) : Answer :=
  let r := readRecords (tableRecords s bin t) start count
  okAnswer ([byte t.code] ++ r.1 ++ [byte r.2])

/-- Read Table (R167). -/
def ownReadTable : Owner := fun p s =>
  let bin := field p 1
  let start := field p 2
  let count := field p 3
  match tableOf (field p 0) with
  | none => (s, refusal .badField (zeros 2))
  | some t =>
    if (t = .binPackets ∧ 23 < bin) ∨ count = 0 ∨ 8 < count ∨ t.lastIndex < start then (s, refusal .badField (zeros 2))
    else (s, tableAnswer s t bin start count)

/-- Status (R166): the report, and the notices-lost flag is cleared. -/
def ownStatus : Owner := fun _ s => (modLink (fun l => { l with lost := false }) s, okAnswer (statusBytes s))

/-! ## Parameters (10) -/

/-- A staged value reaches the latch point of its group when that is at once (R171). -/
def latchStaged (g : Group) (s : State) : State :=
  match g with
  | .link => latchMask s
  | .delivery => if s.shuttle.state = .docked then deliveryLatch s else s
  | .path => s
  | .media => s
  | .compile => s

/-- Set Parameter (R171). -/
def ownSetParameter : Owner := fun p s =>
  let id := field p 0
  let v := fieldLe p 1 4
  match paramOf id with
  | none => (s, refusal .badField (zeros 5))
  | some q =>
    if q.group = .link ∧ q.high < v then (s, refusal .badField (zeros 5))
    else
      let w := q.clamp v
      let s := latchStaged q.group (stage q w s)
      (s, { status := if w = v then .ok else .clamped, reason := none, body := byte id :: le 4 (s.stagedValue q) })

/-- The body of a Get Parameter (R172, 11.4). -/
def parameterBody (s : State) (id : Nat) (q : Param) : List Byte :=
  [byte id, byte q.group.code] ++ le 4 q.low ++ le 4 q.high ++ le 4 q.default ++ le 4 (s.stagedValue q) ++
    le 4 (s.latchedValue q .a) ++ le 4 (s.latchedValue q .b)

/-- Get Parameter (R172). -/
def ownGetParameter : Owner := fun p s =>
  match paramOf (field p 0) with
  | none => (s, refusal .badField (zeros 26))
  | some q => (s, okAnswer (parameterBody s (field p 0) q))

/-- Notice Mask (R164). -/
def ownNoticeMask : Owner := fun p s =>
  let v := fieldLe p 0 4
  if 0x7FFFFF < v then (s, refusal .badField (zeros 4))
  else
    let m := BitVec.ofNat 23 v
    let s := latchMask { s with staged := { s.staged with mask := m } }
    (s, okAnswer (le 4 s.latched.mask.toNat))

/-! ## Service (06, 07) -/

/-- The bins of a mask, ascending. -/
def maskBins (m : Nat) : List (Fin 24) := allBins.filter (fun b => m.testBit b.val)

/-- Bin Service (R139). -/
def ownBinService : Owner := fun p s =>
  let m := fieldLe p 0 3
  match actionOf (field p 3) with
  | none => (s, refusal .badField (zeros 1))
  | some a =>
    if m = 0 then (s, refusal .badField (zeros 1))
    else
      let r := serveBins a (maskBins m) s
      (r.1, okAnswer [byte r.2])

/-- An accepted Compiler Service OUT (R117). -/
def compilerOut (x : CompilerId) (s : State) : State :=
  match (s.comp x).state with
  | .empty => paceTest (modComp x (fun c => { c with state := .out }) s)
  | .out => s
  | _ => modComp x (fun c => { c with outPending := true }) s

/-- An accepted Compiler Service IN (R118). -/
def compilerIn (x : CompilerId) (s : State) : State :=
  match (s.comp x).state with
  | .out =>
    let s :=
      if (s.comp x).paper then modComp x (fun c => { c with state := .clearWait, cycleMark := s.pins.front }) s
      else compileLatch x (modComp x (fun c => { c with state := .empty }) s)
    paceTest s
  | _ => modComp x (fun c => { c with outPending := false }) s

/-- Compiler Service (R117, R118). -/
def ownCompilerService : Owner := fun p s =>
  match compilerOf (field p 0), actionOf (field p 1) with
  | some x, some a =>
    let s := match a with
      | .out => compilerOut x s
      | .in_ => compilerIn x s
    (s, okAnswer [byte (s.comp x).state.code, byte (bitsOf [(s.comp x).outPending])])
  | _, _ => (s, refusal .badField (zeros 2))

/-! ## Restart (R177, R178) -/

/-- Restart PATH (R178): in OFF and in RECOVER, else BUSY. -/
def restartPath (s : State) : State × Answer :=
  if s.tracker.transport = .off ∨ s.tracker.transport = .recover then
    (restartPathNow s, okAnswer [byte (profileCause s.image .path).code, byte (profileCause s.image .media).code])
  else (s, refusal .busy (zeros 2))

/-- Restart FULL (R177): accepted in every transport state; the restart waits for its reply (R169). -/
def restartFull (s : State) : State × Answer := (modLink (fun l => { l with restartWait := true }) s, okAnswer [])

/-- Restart (R177, R178). -/
def ownRestart : Owner := fun p s =>
  match restartKindOf (field p 0) with
  | none => (s, refusal .badField [])
  | some .full => restartFull s
  | some .path => restartPath s

end Sys2Proof.Machine
end

