-- ==== Sys2Proof/Machine/Requests.lean ====
section
/-! DEFINITION. The Link Controller takes requests (R161, R162): the meanings of the request commands, and of a complete frame
by its kind byte. -/

namespace Sys2Proof.Machine

/-- A reply joins the reply queue (R161). -/
def reply (kind seq : Byte) (a : Answer) (s : State) : State :=
  modLink (Link.queueReply { kind := kind, seq := seq, status := a.status, reason := a.reason, body := a.body }) s

/-- A complete request frame reaches the Link Controller. The receiver returns to HUNT (R160); while a Restart FULL waits the
frame is discarded (R169); with 4 replies queued it is discarded with a Link Error notice (R162); during the profile load
the reply is STARTING (R161). Otherwise `f` takes it. -/
def takeComplete (kind seq : Byte) (f : State → State × Answer) (s : State) : State :=
  let s := modLink (fun l => { l with rx := Receiver.hunting }) s
  if s.link.restartWait then s
  else if Config.replyPlaces ≤ s.link.replies.length then notify (.linkError .overrun 0 kind seq) s
  else if s.loading then reply kind seq { status := .starting, reason := none, body := [] } s
  else
    let r := f s
    reply kind seq r.2 r.1

/-- Steps 3 and 4 of R161: the payload's length, then the owner. -/
def checkLength (len : Nat) (own : Owner) (payload : List Byte) (s : State) : State × Answer :=
  if payload.length = len then own payload s else (s, refusal .badLength [])

/-- A complete request frame of a known kind (R161). -/
def takeRequest (kind len : Nat) (own : Owner) (seq : Byte) (payload : List Byte) (s : State) : State :=
  takeComplete (byte kind) seq (checkLength len own payload) s

/-- A complete frame of an unknown kind (step 2 of R161). -/
def takeUnknown (kind seq : Byte) (s : State) : State :=
  takeComplete kind seq (fun s => (s, refusal .unknownRequest [])) s

/-- A complete frame by its kind byte: the fifteen kinds with their lengths and owners (11.3, R161). -/
def takeFrame (kind seq : Byte) (payload : List Byte) (s : State) : State :=
  match kind.toNat with
  | 0x01 => takeRequest 0x01 18 ownOpenRun seq payload s
  | 0x02 => takeRequest 0x02 1 ownAbortRun seq payload s
  | 0x03 => takeRequest 0x03 2 ownAbortSet seq payload s
  | 0x04 => takeRequest 0x04 10 ownAnnounce seq payload s
  | 0x05 => takeRequest 0x05 2 ownWithdraw seq payload s
  | 0x06 => takeRequest 0x06 0 ownResume seq payload s
  | 0x07 => takeRequest 0x07 2 ownRecoveryQuery seq payload s
  | 0x08 => takeRequest 0x08 4 ownReadTable seq payload s
  | 0x09 => takeRequest 0x09 0 ownStatus seq payload s
  | 0x0A => takeRequest 0x0A 5 ownSetParameter seq payload s
  | 0x0B => takeRequest 0x0B 1 ownGetParameter seq payload s
  | 0x0C => takeRequest 0x0C 4 ownBinService seq payload s
  | 0x0D => takeRequest 0x0D 2 ownCompilerService seq payload s
  | 0x0E => takeRequest 0x0E 4 ownNoticeMask seq payload s
  | 0x0F => takeRequest 0x0F 1 ownRestart seq payload s
  | _ => takeUnknown kind seq s

/-- OPEN_RUN (R2). -/
def execOpenRun (seq : Byte) (p : List Byte) (s : State) : Result := .next (takeRequest 0x01 18 ownOpenRun seq p s)
/-- ABORT_RUN (R4). -/
def execAbortRun (seq : Byte) (p : List Byte) (s : State) : Result := .next (takeRequest 0x02 1 ownAbortRun seq p s)
/-- ABORT_SET (R14). -/
def execAbortSet (seq : Byte) (p : List Byte) (s : State) : Result := .next (takeRequest 0x03 2 ownAbortSet seq p s)
/-- ANNOUNCE (R28). -/
def execAnnounce (seq : Byte) (p : List Byte) (s : State) : Result := .next (takeRequest 0x04 10 ownAnnounce seq p s)
/-- WITHDRAW (R39). -/
def execWithdraw (seq : Byte) (p : List Byte) (s : State) : Result := .next (takeRequest 0x05 2 ownWithdraw seq p s)
/-- RESUME (R153). -/
def execResume (seq : Byte) (p : List Byte) (s : State) : Result := .next (takeRequest 0x06 0 ownResume seq p s)
/-- RECOVERY_QUERY (R152). -/
def execRecoveryQuery (seq : Byte) (p : List Byte) (s : State) : Result :=
  .next (takeRequest 0x07 2 ownRecoveryQuery seq p s)
/-- READ_TABLE (R167). -/
def execReadTable (seq : Byte) (p : List Byte) (s : State) : Result := .next (takeRequest 0x08 4 ownReadTable seq p s)
/-- STATUS (R166). -/
def execStatus (seq : Byte) (p : List Byte) (s : State) : Result := .next (takeRequest 0x09 0 ownStatus seq p s)
/-- SET_PARAMETER (R171). -/
def execSetParameter (seq : Byte) (p : List Byte) (s : State) : Result :=
  .next (takeRequest 0x0A 5 ownSetParameter seq p s)
/-- GET_PARAMETER (R172). -/
def execGetParameter (seq : Byte) (p : List Byte) (s : State) : Result :=
  .next (takeRequest 0x0B 1 ownGetParameter seq p s)
/-- BIN_SERVICE_OUT (R139). -/
def execBinServiceOut (seq : Byte) (p : List Byte) (s : State) : Result := .next (takeRequest 0x0C 4 ownBinService seq p s)
/-- BIN_SERVICE_IN (R139). -/
def execBinServiceIn (seq : Byte) (p : List Byte) (s : State) : Result := .next (takeRequest 0x0C 4 ownBinService seq p s)
/-- COMPILER_SERVICE_OUT (R117). -/
def execCompilerServiceOut (seq : Byte) (p : List Byte) (s : State) : Result :=
  .next (takeRequest 0x0D 2 ownCompilerService seq p s)
/-- COMPILER_SERVICE_IN (R118). -/
def execCompilerServiceIn (seq : Byte) (p : List Byte) (s : State) : Result :=
  .next (takeRequest 0x0D 2 ownCompilerService seq p s)
/-- NOTICE_MASK (R164). -/
def execNoticeMask (seq : Byte) (p : List Byte) (s : State) : Result := .next (takeRequest 0x0E 4 ownNoticeMask seq p s)
/-- RESTART_FULL (R177). -/
def execRestartFull (seq : Byte) (p : List Byte) (s : State) : Result := .next (takeRequest 0x0F 1 ownRestart seq p s)
/-- RESTART_PATH (R178). -/
def execRestartPath (seq : Byte) (p : List Byte) (s : State) : Result := .next (takeRequest 0x0F 1 ownRestart seq p s)
/-- UNKNOWN_REQUEST (R161); a frame of a known kind is what its kind says. -/
def execUnknownRequest (kind seq : Byte) (p : List Byte) (s : State) : Result := .next (takeFrame kind seq p s)

end Sys2Proof.Machine
end

