-- ==== Sys2Proof/Machine/Receiver.lean ====
section
/-! DEFINITION. The receiver (R160): the meanings of the character and discard commands. -/

namespace Sys2Proof.Machine

/-- The receiver discards the frame in progress (R160): HUNT, and a Link Error notice with the cause; for CRC it carries the
received length byte. -/
def discardFrame (cause : LinkCause) (length : Nat) (s : State) : State :=
  notify (.linkError cause length 0 0) (modLink (fun l => { l with rx := Receiver.hunting }) s)

/-- The inter-byte timer's end after a byte taken now: 5 ms, 50 ticks (R160). -/
def interByteEnd (now : Tick) : Option Tick := some (after now Config.interByte)

/-- The receiver takes a new state. -/
def setRx (rx : Receiver) (s : State) : State := modLink (fun l => { l with rx := rx }) s

/-- A byte taken in LENGTH (R160). -/
def takeLength (b : Byte) (s : State) : State :=
  if decide (2 ≤ b.toNat) && decide (b.toNat ≤ 122) then
    setRx { state := .body, len := b.toNat, body := [], crc := [], deadline := interByteEnd s.now } s
  else discardFrame .length 0 s

/-- A byte taken in BODY (R160): kept; after the counted number the receiver moves to CHECK. -/
def takeBody (b : Byte) (s : State) : State :=
  let rx := s.link.rx
  let body := rx.body ++ [b]
  setRx { rx with body := body, state := if body.length = rx.len then .check else .body,
                  deadline := interByteEnd s.now } s

/-- The CRC comparison after the second CRC byte (R159, R160). -/
def crcMatches (rx : Receiver) (second : Byte) : Bool :=
  rx.crc ++ [second] == le 2 (crc16 (byte rx.len :: rx.body)).toNat

/-- A byte taken in CHECK (R160): the first is kept; at the second a good frame is complete and its request is taken at once,
a bad one is discarded with cause CRC. -/
def takeCheck (b : Byte) (s : State) : State :=
  let rx := s.link.rx
  if rx.crc.isEmpty then setRx { rx with crc := [b], deadline := interByteEnd s.now } s
  else if crcMatches rx b then takeFrame (rx.body.getD 0 0) (rx.body.getD 1 0) (rx.body.drop 2) s
  else discardFrame .crc rx.len s

/-- BYTE_TAKEN (R160): a good character. -/
def execByteTaken (b : Byte) (s : State) : Result :=
  .next (
    match s.link.rx.state with
    | .hunt =>
      if b = 0xD5#8 then
        setRx { state := .length, len := 0, body := [], crc := [], deadline := interByteEnd s.now } s
      else s
    | .length => takeLength b s
    | .body => takeBody b s
    | .check => takeCheck b s)

/-- The cause the discard's notice carries (11.7). -/
def discardLinkCause : DiscardCause → LinkCause
  | .length => .length
  | .crc => .crc
  | .badStop => .badStop

/-- A discard cause can arise in the receiver's state (R160): LENGTH in LENGTH, CRC in CHECK, BYTE while a frame is in
progress. -/
def discardDue : DiscardCause → RxState → Bool
  | .length, st => st == .length
  | .crc, st => st == .check
  | .badStop, st => st != .hunt

/-- FRAME_DISCARD (R160): the byte in hand breaks the frame: a bad length byte, a failed CRC, or a character with a bad stop
bit, which in HUNT is discarded with no notice (log 35). -/
def execFrameDiscard (c : DiscardCause) (s : State) : Result :=
  .next (
    if discardDue c s.link.rx.state then
      discardFrame (discardLinkCause c) (if c = .crc then s.link.rx.len else 0) s
    else s)

/-- INTER_BYTE_TIMEOUT (R160): the timer expires and the frame is discarded with cause GAP. -/
def execInterByteTimeout (s : State) : Result :=
  .next (if expired s.now s.link.rx.deadline then discardFrame .gap 0 s else s)

end Sys2Proof.Machine
end

