-- ==== Sys2Proof/Machine/Clock.lean ====
section
/-! DEFINITION. A tick of the counter (R48): what an empty queue does. The expiries that are due after it join the queue in a
fixed order, and each then acts as its own command (log 2). -/

namespace Sys2Proof.Machine

/-- A command, when its condition holds. -/
def dueIf (b : Bool) (c : Instr) : List Instr := if b then [c] else []

/-- The deadlines of one path record that are due, `i` its place (R53, R55). -/
def dueOfRec (s : State) (i : Nat) (r : PathRec) : List Instr :=
  dueIf (r.leadDl.any (fun d => !r.slip && reached s.now (after d.at_ s.tSlip))) (.slipStage i) ++
    dueIf (r.leadDl.any (fun d => reached s.now (after d.at_ s.tJam))) (.lateJamStage i) ++
    dueIf (r.clearDl.any (fun d => reached s.now d.at_)) (.clearDeadlineExpiry i)

/-- The timers of one compiler that are due (R102, R103, R105, R107). -/
def dueOfComp (s : State) (x : CompilerId) : List Instr :=
  let c := s.comp x
  dueIf (expired s.now c.settle) (.settleEnd x) ++
    dueIf (c.close.any (fun p => expired s.now p.jogEnd)) (.jogEnd x) ++
    dueIf (c.close.any (fun p => expired s.now p.report)) (.reportTimerExpiry x) ++
    dueIf (expired s.now c.transfer) (.transferTimerExpiry x)

/-- The stages of the head entry window that are due (R36, R37). -/
def dueOfWindow (s : State) : List Instr :=
  match s.queue, s.window with
  | e :: _, some w =>
    dueIf (!e.late && reached s.now (after w s.wEntry)) .entryLate ++
      dueIf (reached s.now (after w (2 * s.wEntry))) .sheetMissing
  | _, _ => []

/-- Every expiry that is due, in a fixed order (log 2); the profile load ends at the latest after 250 ms (R176, log 8). -/
def dueCommands (s : State) : List Instr :=
  dueIf (s.loading && decide (Config.loadLimit ≤ s.now.toNat)) .profileLoadEnd ++
    dueIf (expired s.now s.link.rx.deadline) .interByteTimeout ++
    dueIf (expired s.now s.tracker.spinup) .spinupEnd ++
    dueIf (expired s.now s.tracker.idle) .idleExpiry ++
    dueOfWindow s ++
    dueIf (expired s.now s.guard) .guardEnd ++
    s.tracker.path.zipIdx.flatMap (fun p => dueOfRec s p.2 p.1) ++
    dueIf (expired s.now s.router.spacing) .releaseSpacingEnd ++
    dueOfComp s .a ++ dueOfComp s .b ++
    dueIf (expired s.now s.shuttle.dropEnd) .dropEnd ++
    dueIf (s.shuttle.move.any (fun m => expired s.now m.timeout)) .moveTimeout

/-- The tick counter advances by 1 (R48) and the expiries due at the new tick join the queue. -/
def tick (s : State) : State :=
  let s := { s with now := s.now + 1 }
  { s with pending := dueCommands s }

end Sys2Proof.Machine
end

