-- ==== Sys2Proof/Machine/Dispatch.lean ====
section
/-! DEFINITION. The dispatch of a command to its meaning, one arm for each row of spec/opcode_table.json. -/

namespace Sys2Proof.Machine

def exec (i : Instr) (s : State) : Host.Outcome State Fault Refusal :=
  match i with
  | .resetRelease => Sys2Proof.Machine.execResetRelease s
  | .profileLoadEnd => Sys2Proof.Machine.execProfileLoadEnd s
  | .openRun seq p => Sys2Proof.Machine.execOpenRun seq p s
  | .abortRun seq p => Sys2Proof.Machine.execAbortRun seq p s
  | .abortSet seq p => Sys2Proof.Machine.execAbortSet seq p s
  | .announce seq p => Sys2Proof.Machine.execAnnounce seq p s
  | .withdraw seq p => Sys2Proof.Machine.execWithdraw seq p s
  | .resume seq p => Sys2Proof.Machine.execResume seq p s
  | .recoveryQuery seq p => Sys2Proof.Machine.execRecoveryQuery seq p s
  | .readTable seq p => Sys2Proof.Machine.execReadTable seq p s
  | .status seq p => Sys2Proof.Machine.execStatus seq p s
  | .setParameter seq p => Sys2Proof.Machine.execSetParameter seq p s
  | .getParameter seq p => Sys2Proof.Machine.execGetParameter seq p s
  | .binServiceOut seq p => Sys2Proof.Machine.execBinServiceOut seq p s
  | .binServiceIn seq p => Sys2Proof.Machine.execBinServiceIn seq p s
  | .compilerServiceOut seq p => Sys2Proof.Machine.execCompilerServiceOut seq p s
  | .compilerServiceIn seq p => Sys2Proof.Machine.execCompilerServiceIn seq p s
  | .noticeMask seq p => Sys2Proof.Machine.execNoticeMask seq p s
  | .restartFull seq p => Sys2Proof.Machine.execRestartFull seq p s
  | .restartPath seq p => Sys2Proof.Machine.execRestartPath seq p s
  | .unknownRequest kind seq p => Sys2Proof.Machine.execUnknownRequest kind seq p s
  | .frameDiscard c => Sys2Proof.Machine.execFrameDiscard c s
  | .interByteTimeout => Sys2Proof.Machine.execInterByteTimeout s
  | .txFrameEnd => Sys2Proof.Machine.execTxFrameEnd s
  | .restartFullTakeEffect => Sys2Proof.Machine.execRestartFullTakeEffect s
  | .s0Lead => Sys2Proof.Machine.execS0Lead s
  | .s0Clear => Sys2Proof.Machine.execS0Clear s
  | .sensorLead x => Sys2Proof.Machine.execSensorLead x s
  | .sensorClear x => Sys2Proof.Machine.execSensorClear x s
  | .coverOpen c => Sys2Proof.Machine.execCoverOpen c s
  | .coverClose c => Sys2Proof.Machine.execCoverClose c s
  | .spinupEnd => Sys2Proof.Machine.execSpinupEnd s
  | .idleExpiry => Sys2Proof.Machine.execIdleExpiry s
  | .entryLate => Sys2Proof.Machine.execEntryLate s
  | .sheetMissing => Sys2Proof.Machine.execSheetMissing s
  | .guardEnd => Sys2Proof.Machine.execGuardEnd s
  | .slipStage n => Sys2Proof.Machine.execSlipStage n s
  | .lateJamStage n => Sys2Proof.Machine.execLateJamStage n s
  | .clearDeadlineExpiry n => Sys2Proof.Machine.execClearDeadlineExpiry n s
  | .releaseSpacingEnd => Sys2Proof.Machine.execReleaseSpacingEnd s
  | .settleEnd x => Sys2Proof.Machine.execSettleEnd x s
  | .jogEnd x => Sys2Proof.Machine.execJogEnd x s
  | .strokeReport x formed => Sys2Proof.Machine.execStrokeReport x formed s
  | .reportTimerExpiry x => Sys2Proof.Machine.execReportTimerExpiry x s
  | .compilerPaperAbsent x => Sys2Proof.Machine.execCompilerPaperAbsent x s
  | .transferTimerExpiry x => Sys2Proof.Machine.execTransferTimerExpiry x s
  | .compilerPaperPresent x => Sys2Proof.Machine.execCompilerPaperPresent x s
  | .cartridgeInserted x => Sys2Proof.Machine.execCartridgeInserted x s
  | .cartridgeRemoved x => Sys2Proof.Machine.execCartridgeRemoved x s
  | .positionReached => Sys2Proof.Machine.execPositionReached s
  | .dropEnd => Sys2Proof.Machine.execDropEnd s
  | .moveTimeout => Sys2Proof.Machine.execMoveTimeout s
  | .shuttleHome active => Sys2Proof.Machine.execShuttleHome active s
  | .towerOpen => Sys2Proof.Machine.execTowerOpen s
  | .towerClose => Sys2Proof.Machine.execTowerClose s
  | .binDoorOpen b => Sys2Proof.Machine.execBinDoorOpen b s
  | .binDoorClose b => Sys2Proof.Machine.execBinDoorClose b s
  | .binPaperPresent b => Sys2Proof.Machine.execBinPaperPresent b s
  | .binPaperAbsent b => Sys2Proof.Machine.execBinPaperAbsent b s
  | .shelfEmpty => Sys2Proof.Machine.execShelfEmpty s
  | .shelfNotEmpty => Sys2Proof.Machine.execShelfNotEmpty s
  | .byteTaken b => Sys2Proof.Machine.execByteTaken b s

end Sys2Proof.Machine
end

