-- ==== Sys2Proof/Safety.lean ====
section
/-! DEFINITION. The laws of the device that the manual names and that every step keeps: the law of RUN (R66), the capacities
of the queues and tables (R25, R26, R74, R124, R142, R162, R163), the law of the bin table (R134) and the configuration
memory (10.5). -/

namespace Sys2Proof.Machine

/-! ## The law of RUN (R66) -/

/-- FRONT and TOP are closed and no halt cause is outstanding. -/
def Calm (s : State) : Prop := s.pins.front = false ∧ s.pins.top = false ∧ s.tracker.causes = {}

/-- A set cover pin has its cause in the cause set (R67, R69). -/
def CoversCaused (s : State) : Prop :=
  (s.pins.front = true → s.tracker.causes.coverFront = true) ∧ (s.pins.top = true → s.tracker.causes.coverTop = true)

/-- The transport's timers and tables go with its states (R64 to R67): the spin-up timer runs only in SPINUP, the idle timer
only in RUN with nothing on its way, path records stand only in RUN and queue entries only in SPINUP and RUN. -/
def TransportTimers (s : State) : Prop :=
  (s.tracker.spinup.isSome = true → s.tracker.transport = .spinup) ∧
    (s.tracker.idle.isSome = true → s.tracker.transport = .run ∧ s.queue = [] ∧ s.tracker.path = []) ∧
    (s.tracker.path ≠ [] → s.tracker.transport = .run) ∧
    (s.queue ≠ [] → s.tracker.transport = .run ∨ s.tracker.transport = .spinup)

/-- During the profile load the transport stands in OFF with nothing about it (R63, R176). -/
def LoadLaw (s : State) : Prop :=
  s.tracker.transport = .off ∧ s.tracker.causes = {} ∧ s.tracker.spinup = none ∧ s.tracker.idle = none ∧
    s.tracker.path = [] ∧ s.queue = [] ∧ s.recovery = none

/-- Outside the profile load (R66): only in HALT may a cover be open or a cause stand, and a recovery list waits only in HALT
and RECOVER. -/
def RunningLaw (s : State) : Prop :=
  TransportTimers s ∧ CoversCaused s ∧ (s.tracker.transport ≠ .halt → Calm s) ∧
    (s.recovery.isSome = true → s.tracker.transport = .halt ∨ s.tracker.transport = .recover)

/-- The law of RUN with what makes it inductive (R66). -/
def TransportLaw (s : State) : Prop := if s.loading = true then LoadLaw s else RunningLaw s

/-! ## Capacities -/

/-- The reply queue holds up to 4 replies and the notice FIFO up to 16 notices (R162, R163). -/
def LinkCapacity (l : Link) : Prop := l.replies.length ≤ Config.replyPlaces ∧ l.notices.length ≤ Config.noticePlaces

/-- The announce queue with its held places has 8 places (R25, R26), the path table 12 (R74), and a matched record whose S0
clear event is still to come is TENTATIVE or VOID (R43, R44). -/
def PathCapacity (s : State) : Prop :=
  s.queue.length + s.placesHeld ≤ Config.queuePlaces ∧ s.tracker.path.length ≤ Config.pathPlaces ∧
    ∀ r ∈ s.tracker.path, r.clear.s0 = none → r.sheet ≠ none → r.kind = .tentative ∨ r.kind = .void

/-- The tables have their places (1.1, 1.2, 7.6) and the recovery list at most 32 entries (R142). -/
def TableCapacity (s : State) : Prop :=
  s.runs.length = 16 ∧ s.sets.length = 32 ∧ s.bins.length = 24 ∧
    (∀ l, s.recovery = some l → l.entries.length ≤ 32)

/-- Every capacity the manual states for a queue or table. -/
def CapacityLaw (s : State) : Prop := LinkCapacity s.link ∧ PathCapacity s ∧ TableCapacity s

/-! ## The bin table (R134) -/

/-- One bin: every packet in its list belongs to its owner (so a bin with no owner has an empty list), its list holds at most
40 packets (R124), and FREE and HELD, as state or as pre-open state, go with no owner. -/
def Bin.lawful (q : Bin) : Prop :=
  (∀ p ∈ q.packets, q.owner = some p.key.run) ∧ q.packets.length ≤ Config.binPackets ∧
    (q.state = .free ∨ q.state = .held → q.owner = none) ∧
    (q.state = .opened → q.preOpen = some .free ∨ q.preOpen = some .held → q.owner = none)

/-- The law of the bin table (R134), over the 24 bins. -/
def BinLaw (s : State) : Prop := s.bins.length = 24 ∧ ∀ q ∈ s.bins, q.lawful

/-! ## The laws together -/

/-- Every law of this file that a step keeps. -/
def DeviceLaw (s : State) : Prop := TransportLaw s ∧ CapacityLaw s ∧ BinLaw s

/-! ## The mechanism port -/

/-- What an event of the mechanism port does to the input levels (spec/00 section 8): absent for a command that is none.
POSITION_REACHED and STROKE_REPORT are pulses and have no level. -/
def pinsOf : Instr → Option (Pins → Pins)
  | .s0Lead => some (Pins.setSensor .s0 true)
  | .s0Clear => some (Pins.setSensor .s0 false)
  | .sensorLead x => some (Pins.setSensor x true)
  | .sensorClear x => some (Pins.setSensor x false)
  | .coverOpen c => some (Pins.setCover c true)
  | .coverClose c => some (Pins.setCover c false)
  | .towerOpen => some (fun p => { p with tower := true })
  | .towerClose => some (fun p => { p with tower := false })
  | .binDoorOpen b => some (Pins.setDoor b true)
  | .binDoorClose b => some (Pins.setDoor b false)
  | .binPaperPresent b => some (Pins.setBinPaper b true)
  | .binPaperAbsent b => some (Pins.setBinPaper b false)
  | .compilerPaperPresent x => some (Pins.setCompPaper x true)
  | .compilerPaperAbsent x => some (Pins.setCompPaper x false)
  | .cartridgeInserted x => some (Pins.setCart x true)
  | .cartridgeRemoved x => some (Pins.setCart x false)
  | .shuttleHome v => some (fun p => { p with home := v })
  | .shelfEmpty => some (fun p => { p with shelfEmpty := true })
  | .shelfNotEmpty => some (fun p => { p with shelfEmpty := false })
  | .positionReached => some id
  | .strokeReport _ _ => some id
  | _ => none

/-! ## Requests -/

/-- The kind byte, the sequence byte and the payload of a request command (11.3). -/
def requestOf : Instr → Option (Byte × Byte × List Byte)
  | .openRun q p => some (0x01, q, p)
  | .abortRun q p => some (0x02, q, p)
  | .abortSet q p => some (0x03, q, p)
  | .announce q p => some (0x04, q, p)
  | .withdraw q p => some (0x05, q, p)
  | .resume q p => some (0x06, q, p)
  | .recoveryQuery q p => some (0x07, q, p)
  | .readTable q p => some (0x08, q, p)
  | .status q p => some (0x09, q, p)
  | .setParameter q p => some (0x0A, q, p)
  | .getParameter q p => some (0x0B, q, p)
  | .binServiceOut q p => some (0x0C, q, p)
  | .binServiceIn q p => some (0x0C, q, p)
  | .compilerServiceOut q p => some (0x0D, q, p)
  | .compilerServiceIn q p => some (0x0D, q, p)
  | .noticeMask q p => some (0x0E, q, p)
  | .restartFull q p => some (0x0F, q, p)
  | .restartPath q p => some (0x0F, q, p)
  | .unknownRequest k q p => some (k, q, p)
  | _ => none

/-- The fixed payload length of a request kind (11.3), absent for a kind that is not one of the fifteen. -/
def payloadLength (kind : Byte) : Option Nat :=
  [(0x01#8, 18), (0x02#8, 1), (0x03#8, 2), (0x04#8, 10), (0x05#8, 2), (0x06#8, 0), (0x07#8, 2), (0x08#8, 4), (0x09#8, 0),
    (0x0A#8, 5), (0x0B#8, 1), (0x0C#8, 4), (0x0D#8, 2), (0x0E#8, 4), (0x0F#8, 1)].lookup kind

/-- A request is taken (R161, R162, R169): the profile load has ended, no Restart FULL waits and the reply queue has room. -/
def RequestsTaken (s : State) : Prop :=
  s.loading = false ∧ s.link.restartWait = false ∧ s.link.replies.length < Config.replyPlaces

/-- The state with the receiver back in HUNT (R160), as a request frame's owner finds it. -/
def State.hunted (s : State) : State := { s with link := { s.link with rx := Receiver.hunting } }

/-- The state with a reply to a request in the reply queue (R161). -/
def State.replied (s : State) (kind seq : Byte) (status : ReplyStatus) (reason : Option Reason) (body : List Byte) : State :=
  { s with
    link := s.link.queueReply { kind := kind, seq := seq, status := status, reason := reason, body := body } }

end Sys2Proof.Machine
end

