-- ==== Sys2Proof/Certificates/Slice0/Obligations.lean ====
section
/-! DEFINITION. The statements for the provers, chapter by chapter. A completion statement ends in `exec c s = .next t`, with
the next state written by the rules; `State.hunted` is the receiver's return to HUNT at a complete frame and `State.replied`
the reply in its queue (R160, R161). What is not written in such a state is unchanged: the equality is the frame. -/

section Slice0

open Sys2Proof Sys2Proof.Machine

/-! ## Steps -/

/-- A step takes the command at the front of the queue (the shape of a block's step; log 1). -/
def Obligations.StepTakesTheFrontCommand : Prop :=
  ∀ (c : Instr) (rest : List Instr) (s : State),
    step { s with pending := c :: rest } = exec c { s with pending := rest }

/-- On an empty queue a tick passes: the counter of R48 advances by 1, from 4,294,967,295 to 0, and every timer, window stage,
deadline stage and deadline that is reached at the new tick queues its expiry, the load's end at 250 ms at the latest (R176,
log 8). That a tick is what an empty queue does, and that an expiry is queued, is the model's choice (log 2). -/
def Obligations.EmptyQueueLetsATickPass : Prop :=
  (∀ s : State, s.pending = [] → step s = .next (tick s)) ∧
  (∀ s : State, (tick s).now = s.now + 1 ∧ tick s = { s with now := s.now + 1, pending := (tick s).pending }) ∧
  (0xFFFFFFFF#32 + 1 = (0 : Tick)) ∧
  (∀ s : State,
    (.spinupEnd ∈ (tick s).pending ↔ expired (s.now + 1) s.tracker.spinup = true) ∧
    (.idleExpiry ∈ (tick s).pending ↔ expired (s.now + 1) s.tracker.idle = true) ∧
    (.guardEnd ∈ (tick s).pending ↔ expired (s.now + 1) s.guard = true) ∧
    (.releaseSpacingEnd ∈ (tick s).pending ↔ expired (s.now + 1) s.router.spacing = true) ∧
    (.dropEnd ∈ (tick s).pending ↔ expired (s.now + 1) s.shuttle.dropEnd = true) ∧
    (.interByteTimeout ∈ (tick s).pending ↔ expired (s.now + 1) s.link.rx.deadline = true) ∧
    ∀ x : CompilerId,
      (.settleEnd x ∈ (tick s).pending ↔ expired (s.now + 1) (s.comp x).settle = true) ∧
      (.transferTimerExpiry x ∈ (tick s).pending ↔ expired (s.now + 1) (s.comp x).transfer = true) ∧
      (.jogEnd x ∈ (tick s).pending ↔ ∃ p, (s.comp x).close = some p ∧ expired (s.now + 1) p.jogEnd = true) ∧
      (.reportTimerExpiry x ∈ (tick s).pending ↔ ∃ p, (s.comp x).close = some p ∧ expired (s.now + 1) p.report = true)) ∧
  ∀ s : State,
    (.profileLoadEnd ∈ (tick s).pending ↔ s.loading = true ∧ 2500 ≤ (s.now + 1).toNat) ∧
    (.moveTimeout ∈ (tick s).pending ↔ ∃ m, s.shuttle.move = some m ∧ expired (s.now + 1) m.timeout = true) ∧
    (.entryLate ∈ (tick s).pending ↔ ∃ e es w, s.queue = e :: es ∧ s.window = some w ∧ e.late = false ∧
      reached (s.now + 1) (after w s.wEntry) = true) ∧
    (.sheetMissing ∈ (tick s).pending ↔ ∃ e es w, s.queue = e :: es ∧ s.window = some w ∧
      reached (s.now + 1) (after w (2 * s.wEntry)) = true) ∧
    ∀ i : Nat,
      (.slipStage i ∈ (tick s).pending ↔ ∃ r d, s.tracker.path[i]? = some r ∧ r.leadDl = some d ∧ r.slip = false ∧
        reached (s.now + 1) (after d.at_ s.tSlip) = true) ∧
      (.lateJamStage i ∈ (tick s).pending ↔ ∃ r d, s.tracker.path[i]? = some r ∧ r.leadDl = some d ∧
        reached (s.now + 1) (after d.at_ s.tJam) = true) ∧
      (.clearDeadlineExpiry i ∈ (tick s).pending ↔ ∃ r d, s.tracker.path[i]? = some r ∧ r.clearDl = some d ∧
        reached (s.now + 1) d.at_ = true)

/-- Every command is carried out in every state, and none of them touches the configuration memory or the commands that
wait. A command other than a power-on leaves the clock, and one that neither starts nor ends a load leaves the load flag; the
input levels change by the event's own level alone. -/
def Obligations.EveryCommandCompletes : Prop :=
  ∀ (c : Instr) (s : State), ∃ t : State, exec c s = .next t ∧ t.pending = s.pending ∧ t.image = s.image ∧
    t.pins = (match pinsOf c with
      | some f => f s.pins
      | none => s.pins) ∧
    (c ≠ .resetRelease → c ≠ .restartFullTakeEffect → c ≠ .txFrameEnd →
      t.now = s.now ∧ (c ≠ .profileLoadEnd → t.loading = s.loading))

/-- The laws of the device are kept by every step: the law of RUN with the covers, the causes and the timers (R66), the
capacities of the queues and tables (R26, R74, R124, R142, R162, R163) and the law of the bin table (R134). -/
def Obligations.StepKeepsTheDeviceLaw : Prop :=
  ∀ s t : State, DeviceLaw s → step s = .next t → DeviceLaw t

/-- The laws hold at reset, and so does the canonical form of the configuration memory. That the memory is blank at reset (log 6)
and what the blocks hold until the load ends (log 7) are the model's choice. -/
def Obligations.DeviceLawHoldsAtReset : Prop :=
  DeviceLaw State.reset ∧ Image.wf State.reset.image = true

/-! ## Power-on and the profile load (R169, R175 to R178) -/

/-- The release of reset is a power-on: the figures the chapters give for it, from any state (R48, R169, R176, R177). -/
def Obligations.ResetReleaseStartsAfresh : Prop :=
  ∀ s : State, ∃ t : State, exec .resetRelease s = .next t ∧ t.pins = s.pins ∧ t.image = s.image ∧ t.pending = s.pending ∧
    t.now = 0 ∧ t.loading = true ∧
    t.link.rx.state = .hunt ∧ t.link.rx.deadline = none ∧ t.link.replies = [] ∧ t.link.notices = [] ∧
    t.link.lost = false ∧ t.link.counter = 0 ∧
    t.link.rate = (if s.pins.strap1 = true ∧ s.pins.strap2 = true then .baud460800 else .baud115200) ∧
    t.link.strapMismatch = (s.pins.strap1 != s.pins.strap2) ∧
    t.runs = List.replicate 16 none ∧ t.sets = List.replicate 32 none ∧ t.nextSeq = 1 ∧
    t.queue = [] ∧ t.guard = none ∧
    t.tracker.transport = .off ∧ t.tracker.causes = {} ∧ t.tracker.path = [] ∧ t.tracker.spinup = none ∧
    t.tracker.idle = none ∧ t.tracker.purgeCount = 0 ∧ t.router.lastTaker = .b ∧ t.recovery = none

/-- While the load runs no event at the mechanism port is taken: the input keeps its new level and nothing else changes
(R176; log 39). -/
def Obligations.LoadTakesNoMechanismEvent : Prop :=
  ∀ (c : Instr) (f : Pins → Pins) (s : State), s.loading = true → pinsOf c = some f →
    exec c s = .next { s with pins := f s.pins }

/-- The end of the load (R176), from a state of the load: the loaded values are staged, the marks set, the mask, MEDIA and
DELIVERY values in force, the compilers' COMPILE values latched, and every block up from its input levels (R98, R120, R134,
R141, R72, R63). The PATH values in force are the loaded ones with the three fixes of R174. A bad group gives a Profile Fault
notice with the five causes, after the mask is in force (log 9) and before the latch and the power-on check. A
PROFILE_LOAD_END outside the load does nothing (log 30). -/
def Obligations.LoadEndBringsTheBlocksUp : Prop :=
  (∀ s : State, s.loading = true → LoadLaw s → s.profileMarks.length = 5 →
    ∃ t : State, exec .profileLoadEnd s = .next t ∧ t.loading = false ∧
      t.profileMarks = allGroups.map (fun g => profileCause s.image g != .none) ∧
      t.staged.media = loadedValues s.image .media ∧ t.staged.compile = loadedValues s.image .compile ∧
      t.staged.delivery = loadedValues s.image .delivery ∧ t.staged.mask = maskOfFields (loadedValues s.image .link) ∧
      t.latched.media = t.staged.media ∧ t.latched.delivery = t.staged.delivery ∧ t.latched.mask = t.staged.mask ∧
      t.latched.path = t.staged.path ∧
      t.compA = Compiler.start t.staged.compile s.pins.compPaperA s.pins.cartA ∧
      t.compB = Compiler.start t.staged.compile s.pins.compPaperB s.pins.cartB ∧
      t.shuttle = Shuttle.start s.pins.home s.pins.tower ∧ t.bins = startBins s.pins ∧
      t.shelf = { height := 0, count := 0, fullMark := !s.pins.shelfEmpty, readsEmpty := s.pins.shelfEmpty } ∧
      t.tracker.readings = s.pins.sensors ∧
      t.tracker.causes =
        { jam := allSensors.any s.pins.sensors.get, coverFront := s.pins.front, coverTop := s.pins.top } ∧
      t.tracker.transport =
        (if s.pins.front || s.pins.top || allSensors.any s.pins.sensors.get then .halt else .off) ∧
      ∀ a : Nat → Nat, (∀ i, a i = (loadedValues s.image .path).getD i 0) →
        (∀ i : Nat, i ≠ 1 → i ≠ 4 → i ≠ 15 → t.path i = a i) ∧
        t.path 1 = (if a 0 + a 1 < 440 then 440 - a 0 else a 1) ∧ t.path 4 = (if a 4 < 440 then 440 else a 4) ∧
        t.path 15 = (if a 15 ≤ a 14 then a 14 + 10 else a 15)) ∧
  (∀ s : State, s.loading = true → s.profileMarks.length = 5 → ∃ u v : State,
    u = { s with
      loading := false,
      staged :=
        { path := loadedValues s.image .path, media := loadedValues s.image .media, compile := loadedValues s.image .compile,
          delivery := loadedValues s.image .delivery, mask := maskOfFields (loadedValues s.image .link) },
      latched := { s.latched with mask := maskOfFields (loadedValues s.image .link) },
      profileMarks := allGroups.map (fun g => profileCause s.image g != .none) } ∧
    ((∀ g : Group, profileCause s.image g = .none) → v = u) ∧
    ((∃ g : Group, profileCause s.image g ≠ .none) → v = notify (.profileFault (allGroups.map (profileCause s.image))) u) ∧
    exec .profileLoadEnd s = .next (paceTest (powerOnCheck (startBlocks (latchPathMedia v))))) ∧
  ∀ s : State, s.loading = false → exec .profileLoadEnd s = .next s

/-- A bad header judges every group bad and gives it its defaults (R175), and whatever the image holds, every loaded value
lies in its parameter's range (R170, R175). -/
def Obligations.LoadedValuesLieInTheirRanges : Prop :=
  (∀ (m : List Host.Cell) (g : Group), headerBad m = true → profileCause m g = .header ∧ loadedValues m g = g.defaults) ∧
  ∀ (m : List Host.Cell) (g : Group), (loadedValues m g).length = g.ranges.length ∧
    ∀ i : Nat, i < g.ranges.length →
      (g.ranges.getD i (0, 0)).1 ≤ (loadedValues m g).getD i 0 ∧ (loadedValues m g).getD i 0 ≤ (g.ranges.getD i (0, 0)).2

/-- What the PATH and MEDIA latch leaves (R173, R174, R50): the staged MEDIA values in force, the three fixes held, staged and
latched PATH values equal, the travels worked out from them, and every other PATH value the one that was staged. -/
def Obligations.PathLatchHoldsTheFixes : Prop :=
  ∀ s : State, s.staged.path.length = 25 →
    (latchPathMedia s).latched.media = s.staged.media ∧
    (latchPathMedia s).latched.path = (latchPathMedia s).staged.path ∧
    440 ≤ (latchPathMedia s).path 0 + (latchPathMedia s).path 1 ∧ 440 ≤ (latchPathMedia s).path 4 ∧
    (latchPathMedia s).path 14 < (latchPathMedia s).path 15 ∧
    (latchPathMedia s).tracker.travels = travelsOf (latchPathMedia s).latched.path ∧
    ∀ i : Nat, i ≠ 1 → i ≠ 4 → i ≠ 15 → (latchPathMedia s).path i = s.staged.path.getD i 0

/-- Restart PATH (R178): outside OFF and RECOVER it is refused BUSY; in them the PATH and MEDIA values of the image become the
staged values with their marks, a bad group makes a Profile Fault notice, the PATH and MEDIA latch runs, and the reply carries
the two causes. That the notices join the FIFO before the reply joins its queue is the model's choice (log 14; R165 leaves
either order). -/
def Obligations.RestartPathReloadsTwoGroups : Prop :=
  ∀ (q : Byte) (s : State), RequestsTaken s →
    (s.tracker.transport ≠ .off → s.tracker.transport ≠ .recover →
      exec (.restartPath q [1]) s = .next (s.hunted.replied 0x0F q .refused (some .busy) [0, 0])) ∧
    (s.tracker.transport = .off ∨ s.tracker.transport = .recover →
      exec (.restartPath q [1]) s = .next
        ((latchPathMedia (profileFaultNotice [.path, .media]
          { s.hunted with
            staged := { s.staged with path := loadedValues s.image .path, media := loadedValues s.image .media },
            profileMarks := (s.profileMarks.set 0 (profileCause s.image .path != .none)).set 1
              (profileCause s.image .media != .none) })).replied 0x0F q .ok none
          [byte (profileCause s.image .path).code, byte (profileCause s.image .media).code]))

/-- Restart FULL (R169, R177): it is accepted in every transport state and waits for its reply to be sent; at the end of that
reply's last byte it takes effect: every table and queue empty, no timer running, no frame waiting, the clock at 0 and the
load begun, as at the release of reset, with the inputs and the configuration memory as they stand. A take-effect that is not
due does nothing (log 36). A Restart of an unknown kind is refused BAD_FIELD, with no body (R179, log 15). -/
def Obligations.RestartFullWaitsForItsReply : Prop :=
  (∀ (q : Byte) (s : State), RequestsTaken s →
    exec (.restartFull q [0]) s = .next
      (State.replied { s.hunted with link := { s.hunted.link with restartWait := true } } 0x0F q .ok none [])) ∧
  (∀ s : State, s.link.restartWait = true → s.link.replies = [] → s.link.wire ≠ none →
    exec .txFrameEnd s = exec .resetRelease s ∧ exec .restartFullTakeEffect s = exec .resetRelease s) ∧
  (∀ s : State, s.link.restartWait = true → s.link.replies = [] → s.link.wire ≠ none →
    exec .restartFullTakeEffect s = .next (State.powerOn s.pins s.image s.pending) ∧
    ∃ t : State, exec .restartFullTakeEffect s = .next t ∧ t.pins = s.pins ∧ t.image = s.image ∧ t.pending = s.pending ∧
      t.now = 0 ∧ t.loading = true ∧ t.link.restartWait = false ∧ t.link.rx.state = .hunt ∧ t.link.rx.deadline = none ∧
      t.link.replies = [] ∧ t.link.notices = [] ∧ t.link.wire = none ∧ t.link.lost = false ∧ t.link.counter = 0 ∧
      t.runs = List.replicate 16 none ∧ t.sets = List.replicate 32 none ∧ t.nextSeq = 1 ∧ t.queue = [] ∧ t.window = none ∧
      t.guard = none ∧ t.tracker.transport = .off ∧ t.tracker.causes = {} ∧ t.tracker.path = [] ∧ t.tracker.spinup = none ∧
      t.tracker.idle = none ∧ t.tracker.purgeCount = 0 ∧ t.router.held = false ∧ t.router.spacing = none ∧
      t.router.lastTaker = .b ∧ t.recovery = none) ∧
  (∀ (q b : Byte) (s : State), RequestsTaken s → b ≠ 0 → b ≠ 1 →
    exec (.restartFull q [b]) s = .next (s.hunted.replied 0x0F q .refused (some .badField) []) ∧
    exec (.restartPath q [b]) s = .next (s.hunted.replied 0x0F q .refused (some .badField) [])) ∧
  ∀ s : State, (s.link.restartWait = false ∨ s.link.replies ≠ [] ∨ s.link.wire = none) →
    exec .restartFullTakeEffect s = .next s

/-! ## The control link (09) -/

/-- The checks before a request's owner (R161, R162, R169): a frame complete while a Restart FULL waits is discarded, one that
finds 4 replies queued is discarded with a Link Error notice, one during the load is answered STARTING, an unknown kind and a
wrong length are refused; nothing else changes. -/
def Obligations.RequestsAreGated : Prop :=
  ∀ (c : Instr) (k q : Byte) (p : List Byte) (s : State), requestOf c = some (k, q, p) →
    (s.link.restartWait = true → exec c s = .next s.hunted) ∧
    (s.link.restartWait = false → 4 ≤ s.link.replies.length →
      exec c s = .next (notify (.linkError .overrun 0 k q) s.hunted)) ∧
    (s.link.restartWait = false → s.link.replies.length < 4 → s.loading = true →
      exec c s = .next (s.hunted.replied k q .starting none [])) ∧
    (RequestsTaken s → payloadLength k = none →
      exec c s = .next (s.hunted.replied k q .refused (some .unknownRequest) [])) ∧
    (∀ n : Nat, RequestsTaken s → payloadLength k = some n → p.length ≠ n →
      exec c s = .next (s.hunted.replied k q .refused (some .badLength) []))

/-- A notice made by a block (R163): discarded during the load, ignored when masked, dropped with the flag set when the FIFO
holds 16, else queued at the tail with the counter's value and the tick. -/
def Obligations.NoticesAreMaskedDroppedOrStamped : Prop :=
  ∀ (b : NoticeBody) (s : State),
    (s.loading = true → notify b s = s) ∧
    (s.loading = false → s.latched.mask.getLsbD (b.kind - 1) = false → notify b s = s) ∧
    (s.loading = false → s.latched.mask.getLsbD (b.kind - 1) = true → 16 ≤ s.link.notices.length →
      notify b s = { s with link := { s.link with lost := true } }) ∧
    (s.loading = false → s.latched.mask.getLsbD (b.kind - 1) = true → s.link.notices.length < 16 → s.link.wire ≠ none →
      notify b s = { s with
        link := { s.link with
          notices := s.link.notices ++ [{ stamp := s.link.counter, tick := s.now, body := b }],
          counter := s.link.counter + 1 } }) ∧
    (s.loading = false → s.latched.mask.getLsbD (b.kind - 1) = true → s.link.notices = [] → s.link.replies = [] →
      s.link.wire = none →
      notify b s = { s with
        link := { s.link with
          wire := some (Notice.frame { stamp := s.link.counter, tick := s.now, body := b }),
          counter := s.link.counter + 1 } })

/-- The transmit arbiter at the end of a frame (R165): the oldest reply, else the oldest notice, else the wire is idle. -/
def Obligations.FrameEndSendsRepliesFirst : Prop :=
  ∀ s : State, s.link.restartWait = false → s.link.wire ≠ none →
    (∀ (r : Reply) (rs : List Reply), s.link.replies = r :: rs →
      exec .txFrameEnd s = .next { s with link := { s.link with replies := rs, wire := some r.frame } }) ∧
    (∀ (n : Notice) (ns : List Notice), s.link.replies = [] → s.link.notices = n :: ns →
      exec .txFrameEnd s = .next { s with link := { s.link with notices := ns, wire := some n.frame } }) ∧
    (s.link.replies = [] → s.link.notices = [] →
      exec .txFrameEnd s = .next { s with link := { s.link with wire := none } })

/-- The receiver's byte table and its discards (R160): the next state of the receiver, the timer restarted at each byte taken,
and a Link Error notice for each discarded frame; in HUNT nothing but a start byte counts. -/
def Obligations.ReceiverTakesAndDiscards : Prop :=
  ∀ (b : Byte) (s : State),
    (s.link.rx.state = .hunt → b ≠ 0xD5#8 → exec (.byteTaken b) s = .next s) ∧
    (s.link.rx.state = .hunt → exec (.byteTaken 0xD5#8) s = .next { s with
      link := { s.link with
        rx := { state := .length, len := 0, body := [], crc := [], deadline := some (after s.now 50) } } }) ∧
    (s.link.rx.state = .length → 2 ≤ b.toNat → b.toNat ≤ 122 → exec (.byteTaken b) s = .next { s with
      link := { s.link with
        rx := { state := .body, len := b.toNat, body := [], crc := [], deadline := some (after s.now 50) } } }) ∧
    (s.link.rx.state = .length → (b.toNat < 2 ∨ 122 < b.toNat) →
      exec (.byteTaken b) s = .next (notify (.linkError .length 0 0 0) s.hunted)) ∧
    (s.link.rx.state = .body → exec (.byteTaken b) s = .next { s with
      link := { s.link with
        rx := { s.link.rx with
          body := s.link.rx.body ++ [b],
          state := if s.link.rx.body.length + 1 = s.link.rx.len then .check else .body,
          deadline := some (after s.now 50) } } }) ∧
    (s.link.rx.state = .check → s.link.rx.crc = [] → exec (.byteTaken b) s = .next { s with
      link := { s.link with rx := { s.link.rx with crc := [b], deadline := some (after s.now 50) } } }) ∧
    (∀ c : Byte, s.link.rx.state = .check → s.link.rx.crc = [c] →
      [c, b] ≠ le 2 (crc16 (byte s.link.rx.len :: s.link.rx.body)).toNat →
      exec (.byteTaken b) s = .next (notify (.linkError .crc s.link.rx.len 0 0) s.hunted)) ∧
    (s.link.rx.state ≠ .hunt → exec (.frameDiscard .badStop) s = .next (notify (.linkError .badStop 0 0 0) s.hunted)) ∧
    (s.link.rx.state = .hunt → exec (.frameDiscard .badStop) s = .next s) ∧
    (s.link.rx.state = .length → exec (.frameDiscard .length) s = .next (notify (.linkError .length 0 0 0) s.hunted)) ∧
    (s.link.rx.state = .check →
      exec (.frameDiscard .crc) s = .next (notify (.linkError .crc s.link.rx.len 0 0) s.hunted)) ∧
    (∀ d : Tick, s.link.rx.deadline = some d → reached s.now d = true →
      exec .interByteTimeout s = .next (notify (.linkError .gap 0 0 0) s.hunted))

/-- A frame whose second CRC byte completes it is taken at once as the request its kind byte names (R160, R161). -/
def Obligations.GoodFrameIsItsRequest : Prop :=
  ∀ (c : Instr) (k q : Byte) (p : List Byte) (x b : Byte) (s : State), requestOf c = some (k, q, p) →
    s.link.rx.state = .check → s.link.rx.body = k :: q :: p → s.link.rx.crc = [x] →
    [x, b] = le 2 (crc16 (byte s.link.rx.len :: s.link.rx.body)).toNat →
    exec (.byteTaken b) s = exec c s

/-! ## Runs and sets (01) -/

/-- Open Run (R2, R3): a field outside its values and a place in use are refused; else the record joins with the first FREE
bin of its mask claimed in its fill order, if there is one (an arbitration follows the claim, R122), and the reply names the
active bin. The record has the request's fields, counts 0, a clear done map, next side LEFT, no bins and is OPEN. The mask
field has 24 flags, so it can name no bin above 23. That the notices of the claim's arbitration come before the reply is the
model's choice (log 14; R165 leaves either order). -/
def Obligations.OpenRunCreatesTheRecord : Prop :=
  (∀ (p : List Byte) (r : Fin 16) (run : Run), openRunFields p = some (r, run) →
    field p 0 = r.val ∧ run.label = (p.drop 1).take 8 ∧ (∀ b ∈ run.label, 0x20 ≤ b.toNat ∧ b.toNat ≤ 0x7E) ∧
    run.declared = field p 9 ∧ run.declared ≠ 0 ∧ run.pattern.code = field p 10 ∧
    field p 11 = (if run.requireStaple = true then 1 else 0) ∧
    run.mask = BitVec.ofNat 24 (fieldLe p 12 3) ∧ fieldLe p 12 3 ≠ 0 ∧
    run.order.code = field p 15 ∧ run.policy.code = field p 16 ∧ run.offset.code = field p 17 ∧
    run.delivered = 0 ∧ run.aborted = 0 ∧ run.done = 0 ∧ run.nextSide = .left ∧ run.owned = [] ∧ run.active = none ∧
    run.state = .opened) ∧
  (∀ p : List Byte, openRunFields p = none ↔
    15 < field p 0 ∨ (∃ b ∈ (p.drop 1).take 8, b.toNat < 0x20 ∨ 0x7E < b.toNat) ∨ field p 9 = 0 ∨ 2 < field p 10 ∨
      1 < field p 11 ∨ fieldLe p 12 3 = 0 ∨ 1 < field p 15 ∨ 1 < field p 16 ∨ 1 < field p 17) ∧
  ∀ (q : Byte) (p : List Byte) (s : State), RequestsTaken s → p.length = 18 →
    (openRunFields p = none →
      exec (.openRun q p) s = .next (s.hunted.replied 0x01 q .refused (some .badField) [0])) ∧
    ∀ (r : Fin 16) (run : Run), openRunFields p = some (r, run) →
      (s.getRun r ≠ none → exec (.openRun q p) s = .next (s.hunted.replied 0x01 q .refused (some .runInUse) [0])) ∧
      (s.getRun r = none → firstBin run (fun b => (s.getBin b).state == .free) = none → s.runs.length = 16 →
        exec (.openRun q p) s = .next
          (State.replied { s.hunted with runs := s.runs.set r.val (some run) } 0x01 q .ok none [0xFF])) ∧
      ∀ b : Fin 24, s.getRun r = none → firstBin run (fun b => (s.getBin b).state == .free) = some b →
        ∃ t : State, t = targetEvent
            { s.hunted with
              runs := (s.runs.set r.val (some run)).modify r.val
                (fun o => o.map (fun q => { q with owned := q.owned ++ [b], active := some b })),
              bins := s.bins.modify b.val (fun x => { x with state := .owned, owner := some r }) } ∧
          exec (.openRun q p) s = .next (t.replied 0x01 q .ok none [byte (binCode (t.activeBin r))])

/-- Abort Run (R4): the checks in order, and when they pass the run is ABORTED and each of its set records, in slot order, gets
what an Abort Set does (`abortRecord`, said in AbortSetClosesOrMarks), with the checks of R6 and R7 after. That the notices
come before the reply is the model's choice (log 14; R165 leaves either order). -/
def Obligations.AbortRunEndsTheRun : Prop :=
  ∀ (q b : Byte) (s : State), RequestsTaken s →
    (16 ≤ b.toNat → exec (.abortRun q [b]) s = .next (s.hunted.replied 0x02 q .refused (some .badField) [])) ∧
    ∀ r : Fin 16, b.toNat = r.val →
      (s.getRun r = none → exec (.abortRun q [b]) s = .next (s.hunted.replied 0x02 q .refused (some .unknownRun) [])) ∧
      ∀ run : Run, s.getRun r = some run →
        (run.state ≠ .opened →
          exec (.abortRun q [b]) s = .next (s.hunted.replied 0x02 q .refused (some .runNotOpen) [])) ∧
        (run.state = .opened →
          exec (.abortRun q [b]) s = .next
            (State.replied
              (finishChecks r
                (((s.setRecs.filter (fun x => x.key.run == r)).map (·.key)).foldl (fun s k => abortRecord k s)
                  (modRun r (fun x => { x with state := .aborted }) s.hunted)))
              0x02 q .ok none []))

/-- Abort Set (R14, R15, R16): the checks in order; a set with no record is closed at once with the aborted count and the
done map; a set with a record is marked: ABORTED with the state of R15's table, its entries VOID, its TENTATIVE records VOID
records, then the removal test, the drain test and the close condition test. That such a VOID record takes the PURGE route
with no purge tray test (R83) is the model's reading (log 27). The removal test removes an ABORTED set of which no page
remains, counts it as aborted with its flag in the done map, and makes the run's checks; a removal releases the compiler the
set still had (R17, R99). That the compiler is released before the set is counted is the model's choice (log 55), and that no
pace test follows the abort by itself its reading of R88 (log 19). The run's checks: the completion test (R5), and for a
finished run with no set record the release of its returnable bins (R6, R135; in the order of log 22) and the removal of the
record (R7). That the notices come before the reply is the model's choice (log 14). -/
def Obligations.AbortSetClosesOrMarks : Prop :=
  (∀ (r : Fin 16) (run : Run) (s : State), s.getRun r = some run →
    (run.state = .opened → run.delivered + run.aborted = run.declared → completionTest r s =
      notify (.runDone r run.delivered run.aborted) (modRun r (fun q => { q with state := .done }) s)) ∧
    (run.state ≠ .opened ∨ run.delivered + run.aborted ≠ run.declared → completionTest r s = s) ∧
    ((run.state = .opened ∨ ∃ x ∈ s.setRecs, x.key.run = r) → finishChecks r s = s ∧ removeRunTest r s = s) ∧
    (run.state ≠ .opened → (∀ x ∈ s.setRecs, x.key.run ≠ r) →
      (run.owned = [] → removeRunTest r s = { s with runs := s.runs.set r.val none }) ∧
      (run.owned ≠ [] → removeRunTest r s = s) ∧
      finishChecks r s = removeRunTest r (run.owned.foldl (fun t b =>
        if ((t.getBin b).state = .owned ∨ (t.getBin b).state = .full) ∧ (t.getBin b).packets = [] then releaseBin b .free t
        else t) s))) ∧
  (∀ (b : Fin 24) (r : Fin 16) (st : BinState) (s : State), (s.getBin b).owner = some r → ∃ u : State,
    u = removeRunTest r (modBin b (fun q => { q with state := st }) (modRun r (fun q =>
      { q with owned := q.owned.filter (fun c => c != b), active := if q.active = some b then none else q.active })
      (modBin b (fun q => { q with owner := none }) s))) ∧
    (st = .free → releaseBin b st s = retryWaiting (arbitrate u)) ∧ (st ≠ .free → releaseBin b st s = u)) ∧
  (∀ (x : CompilerId) (s : State), ∃ w : State,
    w = modComp x (fun c => { c with current := none, settle := none, count := 0, thickness := 0, tags := [] }) s ∧
    (∀ y : SetKey, (s.comp x).reserved = some y →
      promoteOrEmpty x s = closeTest x (modSet y (fun q => { q with assigned := some (x, .current) })
        (modComp x (fun c => { c with state := .gathering, current := some y, reserved := none }) w))) ∧
    ((s.comp x).reserved = none → (s.comp x).outPending = true →
      promoteOrEmpty x s = modComp x (fun c => { c with state := .out, outPending := false }) w) ∧
    ((s.comp x).reserved = none → (s.comp x).outPending = false →
      promoteOrEmpty x s = supplyTests x (s.comp x).staples (s.comp x).threshold (modComp x (fun c =>
        { c with
          state := .empty, latched := s.staged.compile, staples := min c.staples (s.staged.compile.getD 5 0) }) w))) ∧
  (∀ (q a b : Byte) (s : State), RequestsTaken s →
    (16 ≤ a.toNat ∨ b = 0 →
      exec (.abortSet q [a, b]) s = .next (s.hunted.replied 0x03 q .refused (some .badField) [0])) ∧
    ∀ r : Fin 16, a.toNat = r.val → b ≠ 0 →
      (s.getRun r = none →
        exec (.abortSet q [a, b]) s = .next (s.hunted.replied 0x03 q .refused (some .unknownRun) [0])) ∧
      ∀ run : Run, s.getRun r = some run →
        (run.state ≠ .opened →
          exec (.abortSet q [a, b]) s = .next (s.hunted.replied 0x03 q .refused (some .runNotOpen) [0])) ∧
        (run.state = .opened →
          (run.declared < b.toNat ∨ run.isDone b.toNat = true ∨
            (s.getSet { run := r, set := b.toNat }).any (·.aborted) = true) →
          exec (.abortSet q [a, b]) s = .next (s.hunted.replied 0x03 q .refused (some .setDone) [0])) ∧
        (run.state = .opened → b.toNat ≤ run.declared → run.isDone b.toNat = false →
          s.getSet { run := r, set := b.toNat } = none →
          exec (.abortSet q [a, b]) s = .next
            (State.replied
              (finishChecks r (completionTest r
                (modRun r (fun x => { x with aborted := x.aborted + 1, done := x.done ||| doneBit b.toNat }) s.hunted)))
              0x03 q .ok none [0])) ∧
        (∀ x : SetRec, run.state = .opened → b.toNat ≤ run.declared → run.isDone b.toNat = false →
          s.getSet { run := r, set := b.toNat } = some x → x.aborted = false →
          ∃ t : State, t = abortRecord { run := r, set := b.toNat } s.hunted ∧
            exec (.abortSet q [a, b]) s = .next
              (t.replied 0x03 q .ok none [if (t.getSet { run := r, set := b.toNat }).isSome then 1 else 0]))) ∧
  (∀ (k : SetKey) (s : State), ∃ u : State, abortRecord k s = closeTestOf k (drainTest k (removalTest k u)) ∧
    u = { s with
      sets := u.sets, queue := s.queue.map (fun e => if e.sheet.key = k then { e with void := true } else e),
      tracker := { s.tracker with path := u.tracker.path } } ∧
    u.sets = s.sets.map (fun o => o.map (fun x => if x.key = k then
      { x with
        aborted := true, state := if x.state = .announcing ∨ x.state = .recovering then .fed else x.state } else x)) ∧
    u.tracker.path = s.tracker.path.map (fun r => if r.kind = .tentative ∧ r.key = some k then
      { r with tag := 0, kind := .void, route := .purge, reason := some .void } else r)) ∧
  (∀ (k : SetKey) (x : SetRec) (s : State), s.getSet k = some x →
    (x.aborted = true → (∀ r ∈ s.tracker.path, r.kind = .confirmed → r.key ≠ some k) → x.inCompiler = 0 →
      (∀ p : Packet, s.compA.packet = some p ∨ s.compB.packet = some p ∨ s.shuttle.packet = some p → p.key ≠ k) →
      removalTest k s = finishChecks k.run (completionTest k.run
        (modRun k.run (fun r => { r with aborted := r.aborted + 1, done := r.done ||| doneBit k.set }) (dropSet k s)))) ∧
    ((x.aborted = false ∨ (∃ r ∈ s.tracker.path, r.kind = .confirmed ∧ r.key = some k) ∨ x.inCompiler ≠ 0 ∨
      ∃ p : Packet, (s.compA.packet = some p ∨ s.compB.packet = some p ∨ s.shuttle.packet = some p) ∧ p.key = k) →
      removalTest k s = s)) ∧
  ∀ (k : SetKey) (x : SetRec) (s : State), s.getSet k = some x →
    (clearSet k s).getSet k = none ∧ (x.assigned = none → dropSet k s = clearSet k s) ∧
    (∀ c : CompilerId, x.assigned = some (c, .reserved) →
      dropSet k s = paceTest (modComp c (fun q => { q with reserved := none }) (clearSet k s))) ∧
    ∀ c : CompilerId, x.assigned = some (c, .current) →
      dropSet k s = paceTest (releaseTest (promoteOrEmpty c (clearSet k s)))

/-! ## Announcing sheets (02) -/

/-- An accepted Announce (R31, R32, R35, R11): the entry joins the tail, the head window starts when it is the head in RUN, OFF
becomes SPINUP with its timer, and the reply carries the credits. A set with no record gets one in the lowest free slot (R8);
a record is advanced by one page and its thickness, FED at its last page, and a RECOVERING one takes REPRINTED with its divert
page cleared. -/
def Obligations.AnnounceJoinsTheTail : Prop :=
  ∀ (q : Byte) (p : List Byte) (tag : Nat) (sh : Sheet) (rep : Bool) (s : State), RequestsTaken s → p.length = 10 →
    announceFields p = some (tag, sh, rep) → announceRefusal s tag sh rep = none →
    ∃ u : State,
      exec (.announce q p) s = .next (u.replied 0x04 q .ok none [byte (8 - (s.queue.length + 1))]) ∧
      u.queue = s.queue ++ [{ tag := tag, sheet := sh, reprint := rep, void := false, late := false }] ∧
      (s.getSet sh.key = none → ∃ i : Nat, s.sets[i]? = some none ∧ (∀ j < i, s.sets[j]? ≠ some none) ∧
        u.sets = s.sets.set i (some
          { key := sh.key, pages := sh.pages, next := 2, announced := 1, confirmed := 0, inCompiler := 0, assigned := none,
            thickness := s.mediaThickness sh.media, aborted := false, reprinted := false, divertPage := none,
            divertCause := none, state := if sh.pages = 1 then .fed else .announcing })) ∧
      (s.getSet sh.key ≠ none → u.sets = s.sets.map (fun o => o.map (fun x => if x.key = sh.key then
        { x with
          next := x.next + 1, announced := x.announced + 1, thickness := x.thickness + s.mediaThickness sh.media,
          reprinted := if x.state = .recovering then true else x.reprinted,
          divertPage := if x.state = .recovering then none else x.divertPage,
          state := if x.announced + 1 = x.pages then .fed else .announcing } else x))) ∧
      u.tracker.path = s.tracker.path ∧ u.tracker.idle = none ∧ u.guard = s.guard ∧ u.runs = s.runs ∧
      u.bins = s.bins ∧ u.shuttle = s.shuttle ∧ u.compA = s.compA ∧ u.compB = s.compB ∧ u.recovery = s.recovery ∧
      u.window = (if s.tracker.transport = .run ∧ s.queue = [] then some s.now else s.window) ∧
      (s.tracker.transport = .off → u.tracker.transport = .spinup ∧ u.tracker.spinup = some (after s.now u.tSpinup)) ∧
      (s.tracker.transport ≠ .off →
        u.tracker.transport = s.tracker.transport ∧ u.tracker.spinup = s.tracker.spinup ∧ u.latched = s.latched)

/-- An Announce that fails a check is refused with the reason of the first that fails, and nothing else changes; a field out of
range is refused first (R27). The ten steps of R28 are then made in their order, contiguity (step 3) by the set's state (R10).
The reply carries the credits (R26). That R28's order stands against the DUPLICATE_TAG of R162 for a repeated Announce is the
model's reading (log 44). -/
def Obligations.RefusedAnnounceChangesNothing : Prop :=
  (∀ (q : Byte) (p : List Byte) (s : State), RequestsTaken s → p.length = 10 →
    (announceFields p = none →
      exec (.announce q p) s = .next (s.hunted.replied 0x04 q .refused (some .badField) [byte (8 - s.queue.length)])) ∧
    (∀ (tag : Nat) (sh : Sheet) (rep : Bool) (r : Reason), announceFields p = some (tag, sh, rep) →
      announceRefusal s tag sh rep = some r →
      exec (.announce q p) s = .next (s.hunted.replied 0x04 q .refused (some r) [byte (8 - s.queue.length)])) ∧
    (∀ (tag : Nat) (sh : Sheet) (rep : Bool), s.getRun sh.key.run = none →
      announceRefusal s tag sh rep = some .unknownRun) ∧
    (∀ (tag : Nat) (sh : Sheet) (rep : Bool),
      announceRefusal s tag sh rep = none ∨ announceRefusal s tag sh rep = some .diverted →
      s.queue.length + s.placesHeld < 8 ∧ tagHeld s tag = false ∧ s.tracker.transport ≠ .halt ∧
      s.tracker.transport ≠ .recover)) ∧
  (∀ p : List Byte,
    (announceFields p = none ↔
      fieldLe p 0 2 = 0 ∨ 15 < field p 2 ∨ field p 3 = 0 ∨ field p 4 = 0 ∨ field p 5 < field p 4 ∨ 60 < field p 5 ∨
        7 < field p 6 ∨ fieldLe p 7 2 < 100 ∨ 432 < fieldLe p 7 2 ∨ 1 < field p 9) ∧
    ∀ (tag : Nat) (sh : Sheet) (rep : Bool), announceFields p = some (tag, sh, rep) →
      tag = fieldLe p 0 2 ∧ sh.key.run.val = field p 2 ∧ sh.key.set = field p 3 ∧ sh.page = field p 4 ∧
      sh.pages = field p 5 ∧ sh.media = field p 6 ∧ sh.length = fieldLe p 7 2 ∧ (rep = true ↔ field p 9 = 1)) ∧
  (∀ (tag : Nat) (sh : Sheet) (rep : Bool) (run : Run) (s : State), s.getRun sh.key.run = some run →
    (run.state ≠ .opened → announceRefusal s tag sh rep = some .runNotOpen) ∧
    ∀ done thick held full slots still flag divert : Prop,
      (done ↔ run.declared < sh.key.set ∨ run.isDone sh.key.set = true ∨ ∃ x, s.getSet sh.key = some x ∧ x.aborted = true) →
      (thick ↔ 8000 < ((s.getSet sh.key).map (·.thickness)).getD 0 + s.mediaThickness sh.media) →
      (held ↔ (∃ e ∈ s.queue, e.tag = tag) ∨ (∃ r ∈ s.tracker.path, r.tag = tag) ∨ tag ∈ s.compA.tags ∨ tag ∈ s.compB.tags) →
      (full ↔ 8 ≤ s.queue.length + s.placesHeld) →
      (slots ↔ s.getSet sh.key = none ∧ ∀ o ∈ s.sets, o ≠ none) →
      (still ↔ s.tracker.transport = .halt ∨ s.tracker.transport = .recover) →
      (flag ↔ ¬ (rep = true ↔ ∃ x, s.getSet sh.key = some x ∧ x.state = .recovering)) →
      (divert ↔ ∃ x, s.getSet sh.key = some x ∧ x.state = .diverting) → run.state = .opened →
      (done → announceRefusal s tag sh rep = some .setDone) ∧
      (¬ done → ∀ r : Reason, contiguityRefusal s sh = some r → announceRefusal s tag sh rep = some r) ∧
      (¬ done → contiguityRefusal s sh = none →
        (thick → announceRefusal s tag sh rep = some .tooThick) ∧
        (¬ thick → held → announceRefusal s tag sh rep = some .duplicateTag) ∧
        (¬ thick → ¬ held → full → announceRefusal s tag sh rep = some .queueFull) ∧
        (¬ thick → ¬ held → ¬ full → slots → announceRefusal s tag sh rep = some .tableFull) ∧
        (¬ thick → ¬ held → ¬ full → ¬ slots → still → announceRefusal s tag sh rep = some .halted) ∧
        (¬ thick → ¬ held → ¬ full → ¬ slots → ¬ still → flag → announceRefusal s tag sh rep = some .badField) ∧
        (¬ thick → ¬ held → ¬ full → ¬ slots → ¬ still → ¬ flag →
          (divert → announceRefusal s tag sh rep = some .diverted) ∧ (¬ divert → announceRefusal s tag sh rep = none)))) ∧
  ∀ (sh : Sheet) (other : Prop) (s : State), (other ↔ ∃ x ∈ s.setRecs, x.key ≠ sh.key ∧ x.state = .announcing) →
    (s.getSet sh.key = none →
      (other → contiguityRefusal s sh = some .setInterleaved) ∧
      (¬ other → sh.page ≠ 1 → contiguityRefusal s sh = some .outOfOrder) ∧
      (¬ other → sh.page = 1 → contiguityRefusal s sh = none)) ∧
    ∀ x : SetRec, s.getSet sh.key = some x →
      (x.state = .recovering → other → contiguityRefusal s sh = some .setInterleaved) ∧
      (x.state = .announcing ∨ (x.state = .recovering ∧ ¬ other) →
        (sh.page ≠ x.next → contiguityRefusal s sh = some .outOfOrder) ∧
        (sh.page = x.next → sh.pages ≠ x.pages → contiguityRefusal s sh = some .pagesMismatch) ∧
        (sh.page = x.next → sh.pages = x.pages → contiguityRefusal s sh = none)) ∧
      (x.state = .fed ∨ x.state = .packing → contiguityRefusal s sh = some .outOfOrder) ∧
      (x.state = .diverting → contiguityRefusal s sh = none)

/-- Withdraw (R39, R40, R18): tag 0, a tag in the machine and a tag in no entry are refused and change nothing; else the
entry and every entry behind it leave, the guard starts, and the reply carries the number and the credits. Each set that had
entries among them that are not VOID is rolled back: its announced count, next page and thickness fall, FED becomes
ANNOUNCING, and the record goes when nothing of it is announced or confirmed, else its drain test is made. That the thickness
taken off a removed page is the MEDIA value latched at the removal is the model's choice (log 56). That the sets are taken in
queue order (log 54) and that the notices of a drain come before the reply (log 14) is the model's choice. -/
def Obligations.WithdrawTakesTheTail : Prop :=
  (∀ (q : Byte) (p : List Byte) (s : State), RequestsTaken s → p.length = 2 →
    (fieldLe p 0 2 = 0 →
      exec (.withdraw q p) s = .next (s.hunted.replied 0x05 q .refused (some .badField) [0, byte (8 - s.queue.length)])) ∧
    (fieldLe p 0 2 ≠ 0 → tagInMachine s (fieldLe p 0 2) = true →
      exec (.withdraw q p) s = .next (s.hunted.replied 0x05 q .refused (some .tooLate) [0, byte (8 - s.queue.length)])) ∧
    (fieldLe p 0 2 ≠ 0 → tagInMachine s (fieldLe p 0 2) = false → (∀ e ∈ s.queue, e.tag ≠ fieldLe p 0 2) →
      exec (.withdraw q p) s = .next (s.hunted.replied 0x05 q .refused (some .notFound) [0, byte (8 - s.queue.length)])) ∧
    ∀ i : Nat, fieldLe p 0 2 ≠ 0 → tagInMachine s (fieldLe p 0 2) = false →
      s.queue.findIdx? (fun e => e.tag == fieldLe p 0 2) = some i →
      ∃ u : State,
        exec (.withdraw q p) s = .next (u.replied 0x05 q .ok none [byte (s.queue.length - i), byte (8 - i)]) ∧
        u = removeFrom i s.hunted ∧
        u.queue = s.queue.take i ∧ u.guard = some (after s.now s.tGuard) ∧
        u.window = (if i = 0 then none else s.window) ∧ u.tracker.transport = s.tracker.transport ∧
        u.tracker.path.length = s.tracker.path.length) ∧
  (∀ (i : Nat) (s : State), ∃ u v : State,
    u = { s with queue := s.queue.take i, window := if i = 0 then none else s.window } ∧
    (∀ ks : List SetKey, ks = ((s.queue.drop i).filter (fun e => !e.void)).map (fun e => e.sheet.key) →
      (∀ k, k ∈ entrySets ((s.queue.drop i).filter (fun e => !e.void)) ↔ k ∈ ks) ∧
      v = (entrySets ((s.queue.drop i).filter (fun e => !e.void))).foldl
        (fun t k => rollbackSet ((s.queue.drop i).filter (fun e => !e.void)) k t) u) ∧
    removeFrom i s = idleTest { v with guard := some (after s.now s.tGuard) }) ∧
  ∀ (es : List Entry) (k : SetKey) (s : State), ∃ u : State,
    (∀ own : List Entry, own = es.filter (fun e => e.sheet.key == k) →
      u = modSet k (fun x =>
        { x with
          announced := x.announced - own.length, next := own.foldl (fun m e => min m e.sheet.page) x.next,
          thickness := x.thickness - (own.map (fun e => s.mediaThickness e.sheet.media)).sum,
          state := if x.state = .fed then .announcing else x.state }) s) ∧
    ((∃ y, u.getSet k = some y ∧ y.announced = 0 ∧ y.confirmed = 0) → rollbackSet es k s = dropSet k u) ∧
    ((∀ y, u.getSet k = some y → y.announced ≠ 0 ∨ y.confirmed ≠ 0) → rollbackSet es k s = drainTest k u)

/-- The head entry's window and the guard (R36, R37, R41): at W_entry the head is LATE with one notice; at twice W_entry the
queue is emptied as by a Withdraw (`removeFrom`, with the rollback of R18 said in WithdrawTakesTheTail) and a Sheet Missing
notice names the head's tag and the number; at its end the guard stops. -/
def Obligations.HeadWindowAndGuardEnd : Prop :=
  (∀ (e : Entry) (es : List Entry) (w : Tick) (s : State), s.queue = e :: es → s.window = some w →
    (e.late = false → reached s.now (after w s.wEntry) = true →
      exec .entryLate s = .next (notify (.entryLate e.tag e.sheet.key e.sheet.page w)
        { s with queue := { e with late := true } :: es })) ∧
    (reached s.now (after w (2 * s.wEntry)) = true →
      ∃ u : State, exec .sheetMissing s = .next (notify (.sheetMissing e.tag (es.length + 1)) u) ∧
        u = removeFrom 0 s ∧ u.queue = [] ∧ u.window = none ∧ u.guard = some (after s.now s.tGuard) ∧
        u.tracker.transport = s.tracker.transport)) ∧
  ∀ (d : Tick) (s : State), s.guard = some d → reached s.now d = true →
    exec .guardEnd s = .next { s with guard := none }

/-- An S0 lead event in RUN (R42): with 12 records an OVERFILL jam; under the guard, or with an empty queue, a STRAY record;
else the head leaves the queue and becomes a TENTATIVE record at the tail of the path table with its place held, and the next
entry's window starts. A VOID head becomes a VOID record. A STRAY record takes the PURGE route with its Stray notice, and it
and a VOID record are followed by the purge tray test (R83, said in S0ClearConfirmsOrDemotes). That the Stray notice comes
before the Purge Full notice is the model's choice (log 53). -/
def Obligations.S0LeadMatchesTheHead : Prop :=
  (∀ (c : StrayCause) (s : State), ∃ r : PathRec,
    strayAtLead c s = purgeRouteTest (notify (.stray c 0 s.now 0 0)
      { s with tracker := { s.tracker with path := s.tracker.path ++ [r], idle := none } }) ∧
    r.tag = 0 ∧ r.kind = .stray ∧ r.sheet = none ∧ r.route = .purge ∧ r.reason = some .stray ∧ r.lead.s0 = some s.now ∧
    r.clear.s0 = none ∧ r.leadDl = some { at_ := after s.now (s.travel 0), sensor := .s1 } ∧
    r.clearDl = some { at_ := after s.now (passage s r .s0 + s.tJam), sensor := .s0 }) ∧
  ∀ s : State, s.loading = false → s.tracker.transport = .run →
    ∃ u : State, u = setReading .s0 true (modPins (Pins.setSensor .s0 true) s) ∧
      (12 ≤ s.tracker.path.length → exec .s0Lead s = .next (jamAtSensor .overfill .s0 u)) ∧
      (s.tracker.path.length < 12 → s.guard ≠ none → exec .s0Lead s = .next (strayAtLead .guard u)) ∧
      (s.tracker.path.length < 12 → s.guard = none → s.queue = [] → exec .s0Lead s = .next (strayAtLead .unannounced u)) ∧
      ∀ (e : Entry) (es : List Entry), s.tracker.path.length < 12 → s.guard = none → s.queue = e :: es →
        (e.void = true → exec .s0Lead s = .next (purgeRouteTest (takeHead es
          (addRec (newRec u 0 .void (some e.sheet) .purge (some .void)) u)))) ∧
        (e.void = false → ∃ (r : PathRec) (t : State), exec .s0Lead s = .next t ∧
          r.tag = e.tag ∧ r.kind = .tentative ∧ r.sheet = some e.sheet ∧ r.route = .unset ∧ r.lead.s0 = some s.now ∧
          r.clear.s0 = none ∧ r.leadDl = some { at_ := after s.now (s.travel 0), sensor := .s1 } ∧
          r.clearDl = some { at_ := after s.now (passage s r .s0 + s.tJam), sensor := .s0 } ∧
          t.tracker.path = s.tracker.path ++ [r] ∧ t.tracker.idle = none ∧ t.tracker.readings.s0 = true ∧
          t.tracker.transport = .run ∧ t.placesHeld = s.placesHeld + 1 ∧ t.queue.map (·.tag) = es.map (·.tag) ∧
          t.window = (if es = [] then none else some s.now) ∧ t.sets = s.sets ∧ t.runs = s.runs ∧ t.link = s.link)

/-- The S0 clear event in RUN (R44, R78): with no record over S0 an UNEXPECTED jam; a STRAY record is not measured, its clear
time is recorded and its deadline moves on; of a measured record, within L_tol a TENTATIVE record is confirmed and routed and
a VOID record stays VOID; outside it either is demoted: a STRAY record, and its entry back at the head of the queue. The
route decision (R84, R85): PURGE for a DIVERTING set, the compiler of a set that has one, else the new-set choice: an EMPTY
compiler takes the set as its current set, any other as its reserved set, with the last taker and, for a gap above 0, a Pace
GAP notice (R60), and with no compiler PURGE for NO_COMPILER, the set DIVERTING from the page. A PURGE route with the tray
full halts (R83). That the Stray notice of a demotion comes before a Purge Full notice, and the pace test of an EMPTY
compiler's new set before its Pace GAP notice, is the model's choice (log 53). -/
def Obligations.S0ClearConfirmsOrDemotes : Prop :=
  (∀ s : State,
    (s.purgeCapacity ≤ s.tracker.purgeCount →
      purgeRouteTest s = halt .purgeFull none (.purgeFull s.tracker.purgeCount s.purgeCapacity true) s) ∧
    (s.tracker.purgeCount < s.purgeCapacity → purgeRouteTest s = s)) ∧
  (∀ (i : Nat) (r : PathRec) (sh : Sheet) (q : SetRec) (s : State), i < s.tracker.path.length →
    s.getSet sh.key = some q →
    (q.state = .diverting → routeDecision i r sh s =
      purgeRouteTest (modRec i (fun z => { z with route := .purge, reason := some .setDiverted }) s)) ∧
    (∀ (x : CompilerId) (role : Role), q.state ≠ .diverting → q.assigned = some (x, role) →
      routeDecision i r sh s = modRec i (fun z => { z with route := .to x, reason := none }) s) ∧
    ∀ run : Run, q.state ≠ .diverting → q.assigned = none → s.getRun sh.key.run = some run →
      (chooseCompiler s run = none → routeDecision i r sh s = purgeRouteTest (drainTest sh.key
        (modSet sh.key (fun z => if z.state = .announcing ∨ z.state = .fed then
            { z with state := .diverting, divertPage := some sh.page, divertCause := some .noCompiler } else z)
          (modRec i (fun z => { z with route := .purge, reason := some .noCompiler }) s)))) ∧
      ∀ x : CompilerId, chooseCompiler s run = some x → ∃ (h : Nat) (u v : State),
        h = holdOf (freeEstimate s x) (after (r.lead.s0.getD s.now)
          (s.travel 0 + s.travel 1 + s.travel 3 + s.travel 4 + s.travel (if x = .a then 5 else 6))) ∧
        u = modRec i (fun z => { z with route := .to x, reason := none }) s ∧
        ((s.comp x).state = .empty → v = modRouter (fun z => { z with lastTaker := x }) (paceTest (releaseTest
          (modSet sh.key (fun z => { z with assigned := some (x, .current) }) (modComp x (fun c =>
            { c with state := .gathering, current := some sh.key, count := 0, thickness := 0, tags := [] }) u))))) ∧
        ((s.comp x).state ≠ .empty → v = modRouter (fun z => { z with lastTaker := x })
          (modSet sh.key (fun z => { z with assigned := some (x, .reserved) })
            (modComp x (fun c => { c with reserved := some sh.key }) u))) ∧
        (gapOf s h = 0 → routeDecision i r sh s = v) ∧
        (0 < gapOf s h → routeDecision i r sh s = notify (.paceGap r.tag (gapOf s h) x h) v)) ∧
  (∀ s : State, s.loading = false → s.tracker.transport = .run → coveringRec s .s0 = none →
    exec .s0Clear s = .next (jamAtSensor .unexpected .s0 (setReading .s0 false (modPins (Pins.setSensor .s0 false) s)))) ∧
  (∀ (i : Nat) (r : PathRec) (s : State), s.loading = false → s.tracker.transport = .run → coveringRec s .s0 = some i →
    s.tracker.path[i]? = some r → r.sheet = none →
    exec .s0Clear s = .next (moveClearDl i (modRec i (fun x => { x with clear := { x.clear with s0 := some s.now } })
      (setReading .s0 false (modPins (Pins.setSensor .s0 false) s))))) ∧
  ∀ (i : Nat) (r : PathRec) (sh : Sheet) (m : Nat) (s : State), s.loading = false → s.tracker.transport = .run →
    coveringRec s .s0 = some i → s.tracker.path[i]? = some r → r.sheet = some sh →
    m = measuredLength s (r.lead.s0.getD s.now) s.now →
    ∃ u : State,
      u = modRec i (fun x => { x with clear := { x.clear with s0 := some s.now } })
        (setReading .s0 false (modPins (Pins.setSensor .s0 false) s)) ∧
      (m ≤ sh.length + s.lTol → sh.length ≤ m + s.lTol → r.kind = .tentative →
        exec .s0Clear s = .next (paceTest (moveClearDl i (routeDecision i { r with kind := .confirmed } sh
          (modSet sh.key (fun x => { x with confirmed := x.confirmed + 1 })
            (modRec i (fun x => { x with kind := .confirmed }) u)))))) ∧
      (m ≤ sh.length + s.lTol → sh.length ≤ m + s.lTol → r.kind ≠ .tentative →
        exec .s0Clear s = .next (moveClearDl i u)) ∧
      ((sh.length + s.lTol < m ∨ m + s.lTol < sh.length) →
        exec .s0Clear s = .next (moveClearDl i (purgeRouteTest
          (notify (.stray .length r.tag (r.lead.s0.getD s.now) sh.length m)
            { modRec i (fun x => { x with tag := 0, kind := .stray, sheet := none, route := .purge, reason := some .stray }) u
              with
              queue := { tag := r.tag, sheet := sh, reprint := false, void := r.kind == .void, late := false } ::
                s.queue.map (fun e => { e with late := false }),
              window := some s.now }))))

/-! ## Transport and sheet tracking (04) -/

/-- The end of the spin-up enters RUN with a Ready notice and the head window or the idle timer (R65); the idle timer's end
returns to OFF and stops the guard and the spacing timer (R66, R41, R96). -/
def Obligations.SpinupAndIdleEnd : Prop :=
  (∀ (d : Tick) (s : State), s.tracker.spinup = some d → reached s.now d = true →
    exec .spinupEnd s = .next (idleTest (startWindow (notify .ready
      { s with tracker := { s.tracker with transport := .run, spinup := none } })))) ∧
  (∀ (d : Tick) (s : State), s.tracker.spinup = some d → reached s.now d = true → s.queue = [] → s.tracker.path = [] →
    exec .spinupEnd s = .next
      { notify .ready { s with tracker := { s.tracker with transport := .run, spinup := none } } with
        window := none,
        tracker := { s.tracker with transport := .run, spinup := none, idle := some (after s.now s.tIdle) } }) ∧
  ∀ (d : Tick) (s : State), s.tracker.idle = some d → reached s.now d = true →
    exec .idleExpiry s = .next
      { s with
        tracker := { s.tracker with transport := .off, idle := none }, router := { s.router with spacing := none },
        guard := none }

/-- Lead events in RUN (R76, R54): no candidate gives an UNEXPECTED jam, an edge more than T_early before the deadline an EARLY
jam; at S1, S3P, S4, S5A and S5B the oldest candidate takes the lead time and its deadlines (R52, R55). A record that reaches
S2 with its S0 clear absent gives a STAY jam at S0 (R77); that its notice names the record's clear deadline is the model's
reading (log 26). Outside RUN and HALT a lead event is an UNEXPECTED jam (R64, R65, R71). -/
def Obligations.LeadEventsMatchOrJam : Prop :=
  ∀ (x : Sensor) (s : State), x ≠ .s0 → s.loading = false →
    ∃ u : State, u = setReading x true (modPins (Pins.setSensor x true) s) ∧
      (s.tracker.transport ≠ .run → s.tracker.transport ≠ .halt →
        exec (.sensorLead x) s = .next (jamAtSensor .unexpected x u) ∧
        exec .s0Lead s = .next (jamAtSensor .unexpected .s0 (setReading .s0 true (modPins (Pins.setSensor .s0 true) s)))) ∧
      (s.tracker.transport = .run → s.tracker.path.findIdx? (candidate x) = none →
        exec (.sensorLead x) s = .next (jamAtSensor .unexpected x u)) ∧
      ∀ (i : Nat) (r : PathRec), s.tracker.transport = .run → s.tracker.path.findIdx? (candidate x) = some i →
        s.tracker.path[i]? = some r →
        (x = .s2 → r.clear.s0 = none →
          exec (.sensorLead x) s = .next (jamOfRecord .stay .s0 r (r.clearDl.map (·.at_)) u)) ∧
        (∀ d : Deadline, (x ≠ .s2 ∨ r.clear.s0 ≠ none) → r.leadDl = some d →
          earlier s.now (d.at_ - BitVec.ofNat 32 s.tEarly) = true →
          exec (.sensorLead x) s = .next (jamOfRecord .early x r (some d.at_) u)) ∧
        (x ≠ .s2 → x ≠ .s3 →
          (∀ d : Deadline, r.leadDl = some d → earlier s.now (d.at_ - BitVec.ofNat 32 s.tEarly) = false) →
          exec (.sensorLead x) s = .next
            (modRec i (fun q => { q with
                leadDl := (q.route.next x).map (fun y => { at_ := after s.now (s.travel (zoneTo y)), sensor := y }),
                clearDl := if r.firstCovered.isSome then q.clearDl
                  else some { at_ := after s.now (passage s q x + s.tJam), sensor := x } })
              (modRec i (fun q => { q with lead := q.lead.set x (some s.now) }) u)))

/-- Clear events in RUN (R75, R78): a sensor that no record covers gives an UNEXPECTED jam; at S1, S2, S3 and S4 the time is
recorded and the deadline moves on; at S3P the record leaves to the purge tray and at S5A and S5B it leaves and lands. In
OFF, SPINUP and RECOVER a clear event changes the reading only (R64, R65, R71). The clear deadline moves on to the first
covered sensor of the route, by that sensor's recorded lead time; it is absent with none covered or while the record is
parked, and one already reached gives a STAY jam at once (R55; that the jam comes within the command is log 33). The
thickness an exit at S3P takes off a set (R12) is the MEDIA value latched at the exit, by the model's choice (log 56). That
the pace test of an exit that fills the tray comes before the removal and drain tests of that exit is its choice too (log
58). A landing (R100): count, tag, thickness up to 8,000, paper reading, pages in compiler, the close condition test, and the
pace test for a last page (R88). The close condition test (R101): a complete stack, or the remainder of an ABORTED set,
starts the settle timer of a GATHERING compiler whose timer is stopped, with FRONT closed; else nothing changes. -/
def Obligations.ClearEventsMoveOrLeave : Prop :=
  (∀ (x : CompilerId) (tag : Nat) (sh : Sheet) (s : State), ∃ u v : State,
    u = modSet sh.key (fun q => { q with inCompiler := q.inCompiler + 1 }) (modComp x (fun c =>
      { c with
        count := c.count + 1, tags := c.tags ++ [tag], thickness := min 8000 (c.thickness + s.mediaThickness sh.media),
        paper := true, lastLanding := s.now }) s) ∧
    v = closeTest x u ∧
    ((∃ q, s.getSet sh.key = some q ∧ q.pages = sh.page) → land x tag sh s = paceTest v) ∧
    ((∀ q, s.getSet sh.key = some q → q.pages ≠ sh.page) → land x tag sh s = v)) ∧
  (∀ (x : CompilerId) (s : State),
    ((s.comp x).state ≠ .gathering ∨ (s.comp x).settle ≠ none ∨ s.pins.front = true ∨ (s.comp x).current = none →
      closeTest x s = s) ∧
    ∀ (k : SetKey) (q : SetRec), (s.comp x).current = some k → s.getSet k = some q →
      ((s.comp x).state = .gathering → (s.comp x).settle = none → s.pins.front = false →
        ((s.comp x).count = q.pages ∨ (q.aborted = true ∧ q.state ≠ .diverting ∧ 0 < (s.comp x).count ∧
          ∀ r ∈ s.tracker.path, r.kind = .confirmed → r.key ≠ some k)) →
        closeTest x s = modComp x (fun c => { c with settle := some (after s.now c.tSettle) }) s) ∧
      ((s.comp x).count ≠ q.pages → (q.aborted = false ∨ q.state = .diverting ∨ (s.comp x).count = 0 ∨
          ∃ r ∈ s.tracker.path, r.kind = .confirmed ∧ r.key = some k) → closeTest x s = s)) ∧
  (∀ (x : Sensor) (s : State), s.loading = false → s.tracker.transport = .run →
    ∃ u : State, u = setReading x false (modPins (Pins.setSensor x false) s) ∧
      (coveringRec s x = none → x ≠ .s0 → exec (.sensorClear x) s = .next (jamAtSensor .unexpected x u)) ∧
      ∀ (i : Nat) (r : PathRec), coveringRec s x = some i → s.tracker.path[i]? = some r →
        (x = .s1 ∨ x = .s2 ∨ x = .s3 ∨ x = .s4 →
          exec (.sensorClear x) s = .next
            (moveClearDl i (modRec i (fun q => { q with clear := q.clear.set x (some s.now) }) u))) ∧
        (∀ sh : Sheet, x = .s5a → r.sheet = some sh →
          exec (.sensorClear x) s = .next (idleTest (land .a r.tag sh
            { u with tracker := { u.tracker with path := s.tracker.path.eraseIdx i } }))) ∧
        (∀ sh : Sheet, x = .s5b → r.sheet = some sh →
          exec (.sensorClear x) s = .next (idleTest (land .b r.tag sh
            { u with tracker := { u.tracker with path := s.tracker.path.eraseIdx i } }))) ∧
        (x = .s3p → ∃ v w : State,
          v = { u with tracker := { u.tracker with
            path := s.tracker.path.eraseIdx i, purgeCount := s.tracker.purgeCount + 1 } } ∧
          (s.tracker.purgeCount + 1 ≠ s.purgeCapacity → w = v) ∧
          (s.tracker.purgeCount + 1 = s.purgeCapacity →
            w = paceTest (notify (.purgeFull (s.tracker.purgeCount + 1) s.purgeCapacity false) v)) ∧
          (r.sheet = none → exec (.sensorClear x) s = .next (idleTest (drainTests w))) ∧
          ∀ sh : Sheet, r.sheet = some sh →
            (r.kind ≠ .confirmed → exec (.sensorClear x) s = .next (idleTest (closeTestOf sh.key (drainTests w)))) ∧
            (r.kind = .confirmed → exec (.sensorClear x) s = .next (idleTest (closeTestOf sh.key (drainTests
              (removalTest sh.key (modSet sh.key (fun q =>
                { q with confirmed := q.confirmed - 1, thickness := q.thickness - s.mediaThickness sh.media }) w)))))))) ∧
  (∀ (x : Sensor) (s : State), s.loading = false →
    s.tracker.transport = .off ∨ s.tracker.transport = .spinup ∨ s.tracker.transport = .recover →
    exec (.sensorClear x) s = .next (setReading x false (modPins (Pins.setSensor x false) s)) ∧
    exec .s0Clear s = .next (setReading .s0 false (modPins (Pins.setSensor .s0 false) s))) ∧
  ∀ (i : Nat) (r : PathRec) (s : State), s.tracker.path[i]? = some r →
    (r.parked = true ∨ (∀ x ∈ r.route.sensors, r.lead.get x = none ∨ r.clear.get x ≠ none) →
      moveClearDl i s = modRec i (fun q => { q with clearDl := none }) s) ∧
    ∀ (x : Sensor) (t d : Tick) (before : List Sensor), r.parked = false → before ++ [x] <+: r.route.sensors →
      (∀ y ∈ before, r.lead.get y = none ∨ r.clear.get y ≠ none) → r.lead.get x = some t → r.clear.get x = none →
      d = after t (passage s r x + s.tJam) →
      (reached s.now d = false →
        moveClearDl i s = modRec i (fun q => { q with clearDl := some { at_ := d, sensor := x } }) s) ∧
      (reached s.now d = true →
        moveClearDl i s = jamOfRecord .stay x r (some d) (modRec i (fun q => { q with clearDl := some { at_ := d, sensor := x } }) s))

/-- Path sensor events in HALT (R79): the reading changes; a lead event does nothing more, and a clear event makes the JAM test
and the leaving test. The path table is empty in HALT. In OFF, SPINUP and RECOVER a lead event is an UNEXPECTED jam. -/
def Obligations.PathEventsInHaltClearTheHalt : Prop :=
  ∀ (x : Sensor) (s : State), s.loading = false →
    (RunningLaw s → s.tracker.transport = .halt → s.tracker.path = []) ∧
    (s.tracker.transport = .halt →
      exec (.sensorLead x) s = .next (setReading x true (modPins (Pins.setSensor x true) s)) ∧
      exec .s0Lead s = .next (setReading .s0 true (modPins (Pins.setSensor .s0 true) s)) ∧
      exec (.sensorClear x) s = .next (leaveTest (jamTest (setReading x false (modPins (Pins.setSensor x false) s)))) ∧
      exec .s0Clear s = .next (leaveTest (jamTest (setReading .s0 false (modPins (Pins.setSensor .s0 false) s))))) ∧
    (s.tracker.transport = .off ∨ s.tracker.transport = .spinup ∨ s.tracker.transport = .recover →
      exec (.sensorLead x) s = .next (jamAtSensor .unexpected x (setReading x true (modPins (Pins.setSensor x true) s))) ∧
      exec .s0Lead s = .next (jamAtSensor .unexpected .s0 (setReading .s0 true (modPins (Pins.setSensor .s0 true) s))))

/-- A halt cause (R67, R97): outside HALT the transport enters HALT, the path table, the queue and the timers are emptied,
the cause joins and the halt record is made, the stock is taken of what was emptied (not from RECOVER, R143) and the notice
is sent; in HALT the cause joins and its notice is sent, and nothing else changes. Stock-taking (R143 to R150): only a halt
with losses acts. The stacks of the compilers in GATHERING, CLOSING or READY at a jammed S5 sensor or of a WHOLE_SET run are
lost (R114). Each affected set without ABORTED gets an entry, in slot order, from one page after its kept stack (log 40) to
its last page, and becomes RECOVERING; a set whose stack is lost is affected even while it is RECOVERING (the model's
reading, log 51); the reservations behind such sets are cancelled (R87; log 28); an affected ABORTED set is FED with its kept
stack and tested for removal and close, in slot order (log 50); the list is then present with its overflow mark clear.
Compiler A before B is log 25. -/
def Obligations.HaltEmptiesThePathAndTheQueue : Prop :=
  (∀ (cause : HaltCause) (jam : Option (JamKind × Sensor)) (b : NoticeBody) (s : State),
    (s.tracker.transport = .halt →
      halt cause jam b s = notify b { s with tracker := { s.tracker with causes := s.tracker.causes.add cause } }) ∧
    (s.tracker.transport ≠ .halt →
      (halt cause jam b s).tracker.transport = .halt ∧ (halt cause jam b s).tracker.path = [] ∧
      (halt cause jam b s).queue = [] ∧ (halt cause jam b s).window = none ∧ (halt cause jam b s).guard = none ∧
      (halt cause jam b s).tracker.spinup = none ∧ (halt cause jam b s).tracker.idle = none ∧
      (halt cause jam b s).tracker.causes = s.tracker.causes.add cause ∧
      (halt cause jam b s).tracker.haltRecord = some { cause := cause, jam := jam, time := s.now } ∧
      (halt cause jam b s).tracker.readings = s.tracker.readings ∧ (halt cause jam b s).pins = s.pins ∧
      (halt cause jam b s).staged = s.staged ∧
      (s.tracker.transport = .recover → (halt cause jam b s).recovery = s.recovery) ∧
      ∃ u : State, u = { s with
          tracker := { s.tracker with
            transport := .halt, spinup := none, idle := none, path := [], causes := s.tracker.causes.add cause,
            haltRecord := some { cause := cause, jam := jam, time := s.now } },
          router := { s.router with spacing := none }, queue := [], window := none, guard := none } ∧
        (s.tracker.transport = .recover → halt cause jam b s = notify b u) ∧
        (s.tracker.transport ≠ .recover → halt cause jam b s = notify b (takeStock
          { path := s.tracker.path, queue := s.queue, halt := { cause := cause, jam := jam, time := s.now } } u)))) ∧
  (∀ (h : Handed) (s : State),
    (hasLosses s h = true ↔ h.path ≠ [] ∨ h.queue ≠ [] ∨ ∃ (x : CompilerId) (k : JamKind), h.halt.jam = some (k, s5Of x) ∧
      ((s.comp x).state = .gathering ∨ (s.comp x).state = .closing ∨ (s.comp x).state = .ready)) ∧
    (hasLosses s h = false → takeStock h s = s) ∧
    (hasLosses s h = true → ∃ (lost : List SetKey) (v w : State) (es : List RecoveryEntry),
      (∀ k, k ∈ lost ↔ ∃ x : CompilerId, (s.comp x).current = some k ∧ stackNamed s h x = true) ∧
      v = (if stackNamed s h .b = true then stackLost .b else id) ((if stackNamed s h .a = true then stackLost .a else id) s) ∧
      es = v.setRecs.filterMap (fun q => if q.aborted = true then none else (affectedCause h lost q.key).map (fun c =>
        { key := q.key, first := (keptStack v q.key).1 + 1, last := q.pages, cause := c })) ∧
      w = cancelTest false .b (cancelTest false .a (es.foldl (fun t e => modSet e.key (fun q =>
        { q with
          state := .recovering, next := e.first, announced := e.first - 1, confirmed := (keptStack t q.key).1,
          inCompiler := (keptStack t q.key).1, thickness := (keptStack t q.key).2, divertPage := none, divertCause := none,
          reprinted := if e.first = 1 then false else q.reprinted }) t) v)) ∧
      takeStock h s = paceTest (closeTest .b (closeTest .a
        { (v.setRecs.filter (fun q => q.aborted && (affectedCause h lost q.key).isSome)).foldl
            (fun t q => abortedAtHalt q.key t) w with
          recovery := some { entries := es, halt := h.halt, overflow := false } })) ∧
      (takeStock h s).recovery = some { entries := es, halt := h.halt, overflow := false })) ∧
  (∀ (h : Handed) (x : CompilerId) (s : State), stackNamed s h x = true ↔
    ((s.comp x).state = .gathering ∨ (s.comp x).state = .closing ∨ (s.comp x).state = .ready) ∧
      ((∃ k : JamKind, h.halt.jam = some (k, s5Of x)) ∨
        ∃ (k : SetKey) (r : Run), (s.comp x).current = some k ∧ s.getRun k.run = some r ∧ r.policy = .wholeSet)) ∧
  (∀ (h : Handed) (lost : List SetKey) (k : SetKey),
    (k ∈ lost → affectedCause h lost k = some .compilerLoss) ∧
    (k ∉ lost → (∃ r ∈ h.path, r.key = some k ∧ (r.kind = .tentative ∨ r.kind = .confirmed)) →
      affectedCause h lost k = some .pathLoss) ∧
    (k ∉ lost → (∀ r ∈ h.path, r.key = some k → r.kind ≠ .tentative ∧ r.kind ≠ .confirmed) →
      ((∃ e ∈ h.queue, e.sheet.key = k ∧ e.void = false) → affectedCause h lost k = some .discarded) ∧
      ((∀ e ∈ h.queue, e.sheet.key = k → e.void = true) → affectedCause h lost k = none))) ∧
  (∀ (k : SetKey) (s : State),
    (s.compA.current = some k → keptStack s k = (s.compA.count, s.compA.thickness)) ∧
    (s.compA.current ≠ some k → s.compB.current = some k → keptStack s k = (s.compB.count, s.compB.thickness)) ∧
    (s.compA.current ≠ some k → s.compB.current ≠ some k → keptStack s k = (0, 0)) ∧
    abortedAtHalt k s = closeTestOf k (removalTest k (modSet k (fun q =>
      { q with
        state := .fed, confirmed := (keptStack s k).1, inCompiler := (keptStack s k).1, divertCause := none }) s))) ∧
  ∀ (x : CompilerId) (s : State), ∃ u v : State,
    (∀ k, (s.comp x).current = some k → u = modSet k (fun q => { q with assigned := none }) s) ∧
    ((s.comp x).current = none → u = s) ∧
    (∀ k, (s.comp x).reserved = some k → v = modSet k (fun q =>
      if q.state = .announcing ∨ q.state = .fed then
        { q with assigned := none, state := .diverting, divertPage := some 1, divertCause := some .noCompiler }
      else { q with assigned := none }) u) ∧
    ((s.comp x).reserved = none → v = u) ∧
    stackLost x s = releaseTest (paceTest (modComp x (fun c =>
      { c with
        state := .clearWait, cycleMark := s.pins.front, settle := none, close := none, transfer := none, packet := none,
        count := 0, thickness := 0, tags := [], current := none, reserved := none, undeliverable := false,
        blockedSent := false }) v))

/-- The FRONT and TOP covers (R69, R112, R113): an opening halts with the cover's cause and its Cover notice, and a FRONT
opening suspends the compilers; a closing sends its notice, removes the cause, makes the JAM test (R68), restarts the
compilers (R113, R115) or empties the purge tray (R82), and makes the leaving test; each of these is said state by state.
That the halt comes before the suspension, compiler A before compiler B, and the order of the parts of a closing are the
model's choice (log 25), and so is that retries stay counted when the jog restarts (log 46) and that the cycle mark is
cleared as CLEAR_WAIT is left (log 52); that a restarted transfer starts anew for the estimate is its reading (log 16). -/
def Obligations.CoversHaltAndRelease : Prop :=
  (∀ c : Compiler,
    (c.state = .gathering → c.suspend = { c with settle := none }) ∧
    (∀ p : CloseProgress, c.state = .closing → c.close = some p → p.report ≠ none → c.suspend = { c with
      close := some { p with report := none, noMore := true },
      packet := c.packet.map (fun k => { k with flags := { k.flags with stapleUnverified := true } }) }) ∧
    (∀ p : CloseProgress, c.state = .closing → c.close = some p → p.report = none →
      c.suspend = { c with close := some { p with jogEnd := none } }) ∧
    (c.state = .transfer → c.suspend = { c with transfer := none }) ∧
    (c.state = .clearWait → c.suspend = { c with cycleMark := true }) ∧
    (c.state = .empty ∨ c.state = .ready ∨ c.state = .out → c.suspend = c)) ∧
  (∀ (x : CompilerId) (s : State),
    ((s.comp x).state = .gathering → resumeCompiler x s = closeTest x s) ∧
    (∀ p : CloseProgress, (s.comp x).state = .closing → (s.comp x).close = some p →
      (p.jogEnd = none → p.report = none → resumeCompiler x s = modComp x (fun c =>
        { c with jogStart := s.now, close := some { p with jogEnd := some (after s.now c.tJog) } }) s) ∧
      (p.jogEnd ≠ none ∨ p.report ≠ none → resumeCompiler x s = s)) ∧
    ((s.comp x).state = .transfer →
      ((s.comp x).transfer ≠ none → resumeCompiler x s = s) ∧
      ((s.comp x).transfer = none → (s.comp x).paper = false → resumeCompiler x s = transferEnd x s) ∧
      ((s.comp x).transfer = none → (s.comp x).paper = true → resumeCompiler x s = modComp x (fun c =>
        { c with transfer := some (after s.now (c.tTransfer + 5000)), transferStart := s.now }) s)) ∧
    ((s.comp x).state = .clearWait →
      ((s.comp x).paper = true → resumeCompiler x s = modComp x (fun c => { c with cycleMark := false }) s) ∧
      ((s.comp x).paper = false → (s.comp x).cycleMark = false → resumeCompiler x s = s) ∧
      ((s.comp x).paper = false → (s.comp x).cycleMark = true → (s.comp x).outPending = true →
        resumeCompiler x s = paceTest (modComp x (fun c =>
          { c with state := .out, outPending := false, cycleMark := false }) s)) ∧
      ((s.comp x).paper = false → (s.comp x).cycleMark = true → (s.comp x).outPending = false →
        resumeCompiler x s = paceTest (supplyTests x (s.comp x).staples (s.comp x).threshold (modComp x (fun c =>
          { c with
            state := .empty, cycleMark := false, latched := s.staged.compile,
            staples := min c.staples (s.staged.compile.getD 5 0) }) s)))) ∧
    ((s.comp x).state = .empty ∨ (s.comp x).state = .ready ∨ (s.comp x).state = .out → resumeCompiler x s = s)) ∧
  (∀ s : State,
    (s.tracker.transport = .halt → (∀ x : Sensor, s.tracker.readings.get x = false) →
      jamTest s = { s with tracker := { s.tracker with causes := { s.tracker.causes with jam := false } } }) ∧
    (s.tracker.transport ≠ .halt ∨ (∃ x : Sensor, s.tracker.readings.get x = true) → jamTest s = s)) ∧
  (∀ s u : State, u = { s with tracker := { s.tracker with purgeCount := 0 } } →
    (s.tracker.purgeCount < s.purgeCapacity ∨ s.purgeCapacity = 0 → emptyTray s = u) ∧
    (s.purgeCapacity ≤ s.tracker.purgeCount → 0 < s.purgeCapacity → emptyTray s = paceTest u)) ∧
  ∀ s : State, s.loading = false →
    exec (.coverOpen .top) s = .next (halt .coverTop none (.cover .top true) { s with pins := { s.pins with top := true } }) ∧
    exec (.coverOpen .front) s = .next (modComp .b Compiler.suspend (modComp .a Compiler.suspend
      (halt .coverFront none (.cover .front true) { s with pins := { s.pins with front := true } }))) ∧
    exec (.coverClose .front) s = .next (leaveTest (resumeCompiler .b (resumeCompiler .a (jamTest
      (modTracker (fun t => { t with causes := { t.causes with coverFront := false } })
        (notify (.cover .front false) { s with pins := { s.pins with front := false } })))))) ∧
    exec (.coverClose .top) s = .next (leaveTest (emptyTray (jamTest
      (modTracker (fun t => { t with causes := { t.causes with coverTop := false, purgeFull := false } })
        (notify (.cover .top false) { s with pins := { s.pins with top := false } })))))

/-- The leaving test (R70, R151): with the three conditions HALT is left for RECOVER with a Recovery Ready notice when the list
has entries, else for OFF with the list absent; with one of them missing nothing changes. -/
def Obligations.HaltIsLeftWhenThreeThingsHold : Prop :=
  ∀ s : State, s.tracker.transport = .halt →
    (∀ l : RecoveryList, s.tracker.causes = {} → (∀ x : Sensor, s.tracker.readings.get x = false) →
      (∀ x : CompilerId, (s.comp x).state = .clearWait → (s.comp x).paper = false) → s.recovery = some l →
      l.entries ≠ [] →
      leaveTest s = notify (.recoveryReady l.entries.length l.halt l.overflow)
        { s with tracker := { s.tracker with transport := .recover } }) ∧
    (s.tracker.causes = {} → (∀ x : Sensor, s.tracker.readings.get x = false) →
      (∀ x : CompilerId, (s.comp x).state = .clearWait → (s.comp x).paper = false) →
      (∀ l : RecoveryList, s.recovery = some l → l.entries = []) →
      leaveTest s = { s with tracker := { s.tracker with transport := .off }, recovery := none }) ∧
    ((s.tracker.causes ≠ {} ∨ (∃ x : Sensor, s.tracker.readings.get x = true) ∨
      ∃ x : CompilerId, (s.comp x).state = .clearWait ∧ (s.comp x).paper = true) → leaveTest s = s)

/-- The stages of a lead deadline and the end of a clear deadline (R53, R55): the slip flag and one Slip notice, a LATE jam, a
STAY jam at the watched sensor. -/
def Obligations.DeadlineStagesSlipAndJam : Prop :=
  ∀ (i : Nat) (r : PathRec) (d : Deadline) (s : State), s.tracker.path[i]? = some r →
    (r.leadDl = some d → r.slip = false → reached s.now (after d.at_ s.tSlip) = true →
      exec (.slipStage i) s = .next (notify (.slip r.tag d.sensor d.at_) (modRec i (fun q => { q with slip := true }) s))) ∧
    (r.leadDl = some d → r.slip = true → exec (.slipStage i) s = .next s) ∧
    (r.leadDl = some d → reached s.now (after d.at_ s.tJam) = true →
      exec (.lateJamStage i) s = .next
        (halt .jam (some (.late, d.sensor)) (.jam .late d.sensor r.tag r.sheet (some d.at_) s.now) s)) ∧
    (r.clearDl = some d → reached s.now d.at_ = true →
      exec (.clearDeadlineExpiry i) s = .next
        (halt .jam (some (.stay, d.sensor)) (.jam .stay d.sensor r.tag r.sheet (some d.at_) s.now) s))

/-! ## Timing arithmetic and routing (03, 05) -/

/-- Two ticks are compared by the sign of their 32-bit difference, and a timer's end is reached when now less the end is zero
or positive (R48); travels and passages round up to a whole tick (R50, R51), the hold is the difference or 0, and the gap is
the hold in pitches rounded up, less 3, within 0 to 15 (R60). -/
def Obligations.TicksTravelsAndGaps : Prop :=
  (∀ a b : Tick, (reached a b = true ↔ 0 ≤ (a - b).toInt) ∧ (earlier a b = true ↔ (a - b).toInt < 0) ∧
    expired a none = false ∧ expired a (some b) = reached a b) ∧
  (∀ l v : Nat, 0 < v → l * 10000 ≤ travelOf l v * v ∧ travelOf l v * v < l * 10000 + v) ∧
  (∀ (s : State) (r : PathRec) (x : Sensor), 0 < s.zoneSpeed (zoneAfter r.route x) →
    r.passLength * 10000 ≤ passage s r x * s.zoneSpeed (zoneAfter r.route x) ∧
    passage s r x * s.zoneSpeed (zoneAfter r.route x) < r.passLength * 10000 + s.zoneSpeed (zoneAfter r.route x)) ∧
  (∀ f a : Tick, ((f - a).toInt ≤ 0 → holdOf f a = 0) ∧ (0 ≤ (f - a).toInt → (holdOf f a : Int) = (f - a).toInt)) ∧
  ∀ (s : State) (h : Nat), 0 < s.pitch → gapOf s h ≤ 15 ∧ (h ≤ 3 * s.pitch → gapOf s h = 0) ∧
    (17 * s.pitch < h → gapOf s h = 15) ∧
    ∀ g : Nat, 0 < g → g < 15 → (g + 2) * s.pitch < h → h ≤ (g + 3) * s.pitch → gapOf s h = g

/-- The Router's choice for a new set (R59) and the overrun count (R90): the one available compiler, or of two the one
expected free earlier, a tie going to the one that did not take last; and the count of the other records between S2 and S4.
The estimate F (R58), by the compiler's state: the retries of a close that a FRONT closing restarted stay counted (the
model's choice, log 46), and a restarted transfer counts from its restart (its reading, log 16). Availability is R57's list;
that a compiler gathering an ABORTED, DIVERTING or RECOVERING set is unavailable even while the set's last page is CONFIRMED
on its route or has landed is the model's reading (log 18). The pace test (R88): with a hold condition while RELEASED it
becomes HELD with a Pace HOLD notice, with none while HELD it becomes RELEASED with a Pace RELEASE notice, else nothing
changes. -/
def Obligations.RouterChoosesTheEarlierCompiler : Prop :=
  (∀ (s : State) (x : CompilerId),
    ((s.comp x).state = .empty → freeEstimate s x = s.now) ∧
    (∀ p : CloseProgress, (s.comp x).state = .closing → (s.comp x).close = some p → freeEstimate s x =
      after (after (s.comp x).jogStart ((s.comp x).tJog + (s.comp x).tStaple * (p.planned + p.retries))) (s.comp x).tTransfer) ∧
    ((s.comp x).state = .ready → s.shuttle.state = .docked → freeEstimate s x = after s.now (s.comp x).tTransfer) ∧
    (∀ t : Tick, (s.comp x).state = .ready → s.shuttle.state ≠ .docked → s.shuttle.free = some t →
      freeEstimate s x = after (if (s.now - t).toInt < 0 then t else s.now) (s.comp x).tTransfer) ∧
    ((s.comp x).state = .transfer → freeEstimate s x = after (s.comp x).transferStart (s.comp x).tTransfer) ∧
    ∀ (k : SetKey) (q : SetRec) (r : Run), (s.comp x).state = .gathering → (s.comp x).current = some k →
      s.getSet k = some q → s.getRun k.run = some r → ∃ e : Tick,
      freeEstimate s x = after e
        ((s.comp x).tSettle + (s.comp x).tJog + r.pattern.strokes * (s.comp x).tStaple + (s.comp x).tTransfer) ∧
      ((s.comp x).count = q.pages → e = (s.comp x).lastLanding) ∧
      ∀ c : PathRec, (s.comp x).count ≠ q.pages → s.tracker.path.find? (fun c => c.kind == .confirmed &&
          c.route == .to x && c.sheet.any (fun sh => sh.key == q.key && sh.page == q.pages)) = some c →
        (∀ t : Tick, c.lead.get (s5Of x) = some t → e = after t (passage s c (s5Of x))) ∧
        ∀ (y : Sensor) (t : Tick) (before rest : List Sensor), c.route.sensors = before ++ y :: rest →
          c.lead.get y = some t → (∀ z ∈ rest, c.lead.get z = none) → rest ≠ [] →
          e = after (after t ((rest.map (fun z => s.travel (zoneTo z))).sum)) (passage s c (s5Of x))) ∧
  (∀ (s : State) (r : Run),
    (canTake s r .a = false → canTake s r .b = false → chooseCompiler s r = none) ∧
    (canTake s r .a = true → canTake s r .b = false → chooseCompiler s r = some .a) ∧
    (canTake s r .a = false → canTake s r .b = true → chooseCompiler s r = some .b) ∧
    (canTake s r .a = true → canTake s r .b = true → (freeEstimate s .a - freeEstimate s .b).toInt < 0 →
      chooseCompiler s r = some .a) ∧
    (canTake s r .a = true → canTake s r .b = true → (freeEstimate s .b - freeEstimate s .a).toInt < 0 →
      0 ≤ (freeEstimate s .a - freeEstimate s .b).toInt → chooseCompiler s r = some .b) ∧
    (canTake s r .a = true → canTake s r .b = true → freeEstimate s .a = freeEstimate s .b →
      chooseCompiler s r = some (otherCompiler s.router.lastTaker))) ∧
  (∀ (s : State) (i : Nat),
    overrunCount s i = (List.range s.tracker.path.length).countP (fun j => j != i &&
      (s.tracker.path[j]?).any (fun r => r.route.isCompiler && r.lead.s2.isSome && r.lead.s4.isNone))) ∧
  (∀ (s : State) (x : CompilerId) (r : Run),
    (available s x = true ↔ (s.comp x).outPending = false ∧ (s.comp x).reserved = none ∧
      ((s.comp x).state = .empty ∨ (s.comp x).state = .closing ∨ (s.comp x).state = .transfer ∨
        ((s.comp x).state = .ready ∧ (s.comp x).undeliverable = false ∧ s.shuttle.state ≠ .fault ∧
          s.shuttle.suspended = false) ∨
        ((s.comp x).state = .gathering ∧ ∃ (k : SetKey) (q : SetRec), (s.comp x).current = some k ∧ s.getSet k = some q ∧
          q.aborted = false ∧ q.state ≠ .diverting ∧ q.state ≠ .recovering ∧
          ((s.comp x).count = q.pages ∨ ∃ c : PathRec, c.parked = false ∧ s.tracker.path.find? (fun c => c.kind == .confirmed &&
            c.route == .to x && c.sheet.any (fun sh => sh.key == q.key && sh.page == q.pages)) = some c)))) ∧
    (canTake s r x = true ↔ available s x = true ∧ (r.requireStaple = false ∨ r.pattern = .none ∨
      ((s.comp x).fault = false ∧ r.pattern.strokes ≤ (s.comp x).staples)))) ∧
  ∀ (c : PaceConditions) (s : State),
    (c.noCompiler = true ↔ available s .a = false ∧ available s .b = false) →
    (c.purgeFull = true ↔ s.purgeCapacity ≤ s.tracker.purgeCount) →
    (c.noTarget = true ↔ ∀ x : CompilerId, (s.comp x).state = .ready ∧ (s.comp x).undeliverable = true) →
    (s.router.held = false → c.noCompiler = true ∨ c.purgeFull = true ∨ c.noTarget = true →
      paceTest s = notify (.paceHold c) { s with router := { s.router with held := true } }) ∧
    (s.router.held = true → c.noCompiler = false → c.purgeFull = false → c.noTarget = false →
      paceTest s = notify .paceRelease { s with router := { s.router with held := false } }) ∧
    ((s.router.held = true ↔ c.noCompiler = true ∨ c.purgeFull = true ∨ c.noTarget = true) → paceTest s = s)

/-- The diverter and the gate in RUN, for an edge that is not early (R89, R93, R94). At S3 a record passes when the buffer is
empty and its compiler's current set is its set, else it parks without deadlines and the release test follows, with the pace
test for the last page of a current set (R88). At S2 a compiler-routed record of a DIVERTING set is routed to PURGE as
SET_DIVERTED, one that finds 3 others between S2 and S4 to PURGE as OVERRUN with its set diverted from its page (R91), and
any other keeps its route; the drive follows the route, a new PURGE route is tested against the tray (R83), and then come the
deadlines by the route now in force, the drain test of the record's set (R92), the cancellation test when that set has just
entered DIVERTING as a current set (R87) and the pace test for the last page of a current set. That a cancellation makes its
drain test before its pace test is the model's choice (log 58). That a set's entry into DIVERTING by an earlier page is
followed by no pace test of its own is the model's reading of R88 (log 19). -/
def Obligations.DiverterAndGateDecide : Prop :=
  (∀ (i : Nat) (r : PathRec) (s : State), s.loading = false → s.tracker.transport = .run →
    s.tracker.path.findIdx? (candidate .s3) = some i → s.tracker.path[i]? = some r → tooEarly s r = false →
    ∃ u v : State, u = modRec i (fun q => { q with lead := { q.lead with s3 := some s.now } })
        (setReading .s3 true (modPins (Pins.setSensor .s3 true) s)) ∧
      v = releaseTest (modRouter (fun q => { q with gate := .stop })
        (modRec i (fun q => { q with parked := true, leadDl := none, clearDl := none }) u)) ∧
      (s.buffer = [] → compilerReady s r = true →
        exec (.sensorLead .s3) s = .next
          (modRouter (fun q => { q with gate := .pass }) (setDeadlines i .s3 r.firstCovered.isSome u))) ∧
      (s.buffer ≠ [] ∨ compilerReady s r = false →
        exec (.sensorLead .s3) s = .next (if lastOfCurrent s r = true then paceTest v else v))) ∧
  (∀ (r : PathRec) (s : State),
    (lastOfCurrent s r = true ↔ ∃ (sh : Sheet) (q : SetRec) (x : CompilerId), r.sheet = some sh ∧ s.getSet sh.key = some q ∧
      sh.page = q.pages ∧ q.assigned = some (x, .current)) ∧
    (compilerReady s r = true ↔ ∃ (sh : Sheet) (x : CompilerId), r.sheet = some sh ∧ r.route = .to x ∧
      (s.comp x).current = some sh.key)) ∧
  (∀ (i : Nat) (r : PathRec) (s : State), s.loading = false → s.tracker.transport = .run →
    s.tracker.path.findIdx? (candidate .s2) = some i → s.tracker.path[i]? = some r → tooEarly s r = false →
    r.clear.s0 ≠ none →
    ∃ u v w d e : State,
      u = modRec i (fun q => { q with lead := { q.lead with s2 := some s.now } })
        (setReading .s2 true (modPins (Pins.setSensor .s2 true) s)) ∧
      (r.route.isCompiler = false ∨ (r.key.any s.isDiverting = false ∧ overrunCount s i < 3) →
        v = modRouter (fun q => { q with diverter := if r.route = .purge then .purge else .feed }) u) ∧
      (r.route.isCompiler = true → r.key.any s.isDiverting = true →
        v = purgeRouteTest (modRouter (fun q => { q with diverter := .purge })
          (modRec i (fun q => { q with route := .purge, reason := some .setDiverted }) u))) ∧
      (∀ sh : Sheet, r.route.isCompiler = true → r.key.any s.isDiverting = false → 3 ≤ overrunCount s i → r.sheet = some sh →
        v = purgeRouteTest (modRouter (fun q => { q with diverter := .purge })
          (modRec i (fun q => { q with route := .purge, reason := some .overrun })
            (modSet sh.key (fun q => if q.state = .announcing ∨ q.state = .fed then
              { q with state := .diverting, divertPage := some sh.page, divertCause := some .overrun } else q) u)))) ∧
      w = modRec i (fun q => { q with
        leadDl := (q.route.next .s2).map (fun y => { at_ := after v.now (v.travel (zoneTo y)), sensor := y }),
        clearDl := if r.firstCovered.isSome then q.clearDl
          else some { at_ := after v.now (passage v q .s2 + v.tJam), sensor := .s2 } }) v ∧
      (r.sheet = none → d = w) ∧ (∀ sh : Sheet, r.sheet = some sh → d = drainTest sh.key w) ∧
      (∀ entered : Prop, (entered ↔ ∃ (sh : Sheet) (q : SetRec) (x : CompilerId), r.sheet = some sh ∧
          s.isDiverting sh.key = false ∧ w.getSet sh.key = some q ∧ q.state = .diverting ∧ q.assigned = some (x, .current)) →
        (entered → e = cancelTest true .b (cancelTest true .a d)) ∧ (¬ entered → e = d)) ∧
      exec (.sensorLead .s2) s = .next (if lastOfCurrent s r = true then paceTest e else e)) ∧
  (∀ (k : SetKey) (q : SetRec) (s : State), s.getSet k = some q →
    (q.state ≠ .diverting ∨ (∃ e ∈ s.queue, e.sheet.key = k ∧ e.void = false) ∨ (∃ r ∈ s.tracker.path, r.key = some k ∧
        (((r.kind = .tentative ∨ r.kind = .confirmed) ∧ r.lead.s2 = none) ∨ (r.kind = .confirmed ∧ r.route = .purge))) →
      drainTest k s = s) ∧
    (q.state = .diverting → (∀ e ∈ s.queue, e.sheet.key = k → e.void = true) →
      (∀ r ∈ s.tracker.path, r.key = some k → (r.kind = .tentative ∨ r.kind = .confirmed → r.lead.s2 ≠ none) ∧
        (r.kind = .confirmed → r.route ≠ .purge)) →
      (q.aborted = true → drainTest k s = closeTestOf k (removalTest k
        (modSet k (fun x => { x with state := .fed, divertCause := none }) s))) ∧
      ∀ (page : Nat) (cause : DivertCause), q.aborted = false → q.divertPage = some page → q.divertCause = some cause →
        drainTest k s = closeTestOf k (notify (.setDiverted k page cause (q.assigned.map (·.1)) q.inCompiler)
          (modSet k (fun x =>
            { x with state := .recovering, next := page, announced := page - 1, divertCause := none }) s)))) ∧
  ∀ (b : Bool) (x : CompilerId) (s : State),
    ((s.comp x).reserved = none ∨ (∀ (k : SetKey) (q : SetRec), (s.comp x).current = some k → s.getSet k = some q →
      q.state ≠ .diverting ∧ q.state ≠ .recovering) → cancelTest b x s = s) ∧
    ∀ (y k : SetKey) (q : SetRec), (s.comp x).reserved = some y → (s.comp x).current = some k → s.getSet k = some q →
      q.state = .diverting ∨ q.state = .recovering →
      ∃ u : State, u = modSet y (fun z => if z.state = .announcing ∨ z.state = .fed then
            { z with assigned := none, state := .diverting, divertPage := some 1, divertCause := some .noCompiler }
          else { z with assigned := none }) (modComp x (fun c => { c with reserved := none }) s) ∧
        cancelTest b x s = paceTest (if b = true then drainTest y u else u)

/-- The release spacing timer's end (R95, R96): the timer stops and the release test is made; the head of the buffer whose
compiler has its set as current set is unparked with its S4 deadline 300 ticks ahead, and the timer starts again. That no
pace test follows the release of a last page is the model's reading of R88's list (log 19). -/
def Obligations.SpacingEndReleasesTheHead : Prop :=
  (∀ (d : Tick) (s : State), s.router.spacing = some d → reached s.now d = true →
    exec .releaseSpacingEnd s = .next (releaseTest { s with router := { s.router with spacing := none } })) ∧
  (∀ s : State, s.buffer = [] → releaseTest s = s) ∧
  (∀ (d : Tick) (s : State), s.router.spacing = some d → releaseTest s = s) ∧
  ∀ (i : Nat) (r : PathRec) (s : State), s.router.spacing = none → s.tracker.path.findIdx? (·.parked) = some i →
    s.tracker.path[i]? = some r →
    (compilerReady s r = false → releaseTest s = s) ∧
    (compilerReady s r = true →
      releaseTest s = modRouter (fun q => { q with spacing := some (after s.now s.tRelease), gate := .pass })
        (modRec i (fun r => { r with
          parked := false, leadDl := some { at_ := after s.now 300, sensor := .s4 },
          clearDl := if r.clear.s3.isNone then some (clearDeadlineAt s r .s3 s.now) else none }) s))

/-! ## Compilers and stapling (06) -/

/-- The settle timer's end starts the close (R102, R21, R22): the packet takes the sequence, the sheets and the thickness of
the stack, the set is PACKING, the strokes are planned, and the jog runs. That the jog start is the tick at which the expiry is
taken is the model's choice (log 3); at the expiry's own tick it is the settle expiry time of R102. -/
def Obligations.SettleEndStartsTheClose : Prop :=
  (∀ (x : CompilerId) (q : SetRec) (r : Run) (k : SetKey) (d : Tick) (s : State), (s.comp x).settle = some d →
    reached s.now d = true → (s.comp x).current = some k → s.getSet k = some q → s.getRun q.key.run = some r →
    ∃ p : Packet, p.seq = s.nextSeq ∧ p.key = q.key ∧ p.sheets = (s.comp x).count ∧
      p.thickness = (s.comp x).thickness ∧ p.stapled = false ∧ (r.offset = .alternate → p.side = r.nextSide) ∧
      (r.offset = .none → p.side = .none) ∧
      (p.flags.tooThick = true ↔ r.pattern ≠ .none ∧ (s.comp x).stapleLimit < (s.comp x).thickness) ∧
      (p.flags.incomplete = true ↔ (s.comp x).count < q.pages) ∧ p.flags.reprinted = q.reprinted ∧
      exec (.settleEnd x) s = .next (paceTest (modComp x (fun c =>
        { c with
          state := .closing, settle := none, packet := some p, jogStart := s.now,
          close := some
            { planned := if p.flags.tooThick || p.flags.incomplete then 0 else r.pattern.strokes,
              made := 0, retry := false, retries := 0, jogEnd := some (after s.now (s.comp x).tJog), report := none,
              noMore := false } })
        (modRun q.key.run Run.flipSide (modSet q.key (fun q => { q with state := .packing })
          { s with nextSeq := s.nextSeq + 1 }))))) ∧
  Pattern.strokes .none = 0 ∧ Pattern.strokes .corner = 1 ∧ Pattern.strokes .edge2 = 2 ∧ (0xFFFF#16 + 1 = (0 : PacketSeq))

/-- The jog's end (R103): with no stroke due, or none allowed any more after an abandoned stroke (R112, R113), the close ends; a
stapler in FAULT gives STAPLE_FAILED and a count of 0 NO_STAPLE, and the close ends; else a stroke starts: one staple less, the
supply tests and the report timer of T_staple plus 5,000 ticks. The close's end (R106): stapled when strokes were planned and
all were made, READY, the packet offered, an arbitration and the pace test. -/
def Obligations.JogEndTestsTheStapler : Prop :=
  (∀ (x : CompilerId) (p : CloseProgress) (d : Tick) (s : State), (s.comp x).close = some p → p.jogEnd = some d →
    reached s.now d = true → p.noMore = false →
    ∃ u : State, u = modComp x (fun c => { c with close := some { p with jogEnd := none } }) s ∧
      (p.planned ≤ p.made → exec (.jogEnd x) s = .next (closeEnd x u)) ∧
      (p.made < p.planned → (s.comp x).fault = true →
        exec (.jogEnd x) s = .next (closeEnd x (modComp x (Compiler.flagPacket (fun f => { f with stapleFailed := true })) u))) ∧
      (p.made < p.planned → (s.comp x).fault = false → (s.comp x).staples = 0 →
        exec (.jogEnd x) s = .next (closeEnd x (modComp x (Compiler.flagPacket (fun f => { f with noStaple := true })) u))) ∧
      (p.made < p.planned → (s.comp x).fault = false → (s.comp x).staples ≠ 0 →
        exec (.jogEnd x) s = .next (supplyTests x (s.comp x).staples (s.comp x).threshold (modComp x (fun c =>
          { c with
            staples := c.staples - 1,
            close := some { p with
              jogEnd := none, report := some (after s.now ((s.comp x).tStaple + 5000)),
              retries := if p.retry then p.retries + 1 else p.retries } }) u)))) ∧
  (∀ (x : CompilerId) (p : CloseProgress) (d : Tick) (s : State), (s.comp x).close = some p → p.jogEnd = some d →
    reached s.now d = true → p.noMore = true →
    exec (.jogEnd x) s = .next (closeEnd x (modComp x (fun c => { c with close := some { p with jogEnd := none } }) s))) ∧
  ∀ (x : CompilerId) (p : CloseProgress) (k : Packet) (s : State), (s.comp x).close = some p → (s.comp x).packet = some k →
    closeEnd x s = paceTest (arbitrate (modComp x (fun c =>
      { c with
        state := .ready, close := none, undeliverable := false, blockedSent := false,
        packet := some { k with stapled := decide (0 < p.planned ∧ p.made = p.planned) } }) s))

/-- A stroke's report and its timer (R104, R105): a report with no stroke in progress is ignored; FORMED makes the position and
clears the retry flag; NOT_FORMED on a first attempt sets it, both with the test of R103; NOT_FORMED on the retry, and the
timer's end, put the stapler in FAULT. -/
def Obligations.StrokeReportsAreTaken : Prop :=
  ∀ (x : CompilerId) (s : State),
    (s.loading = false → (s.comp x).close.any (fun p => p.report.isSome) = false →
      ∀ f : Bool, exec (.strokeReport x f) s = .next s) ∧
    ∀ (p : CloseProgress) (d : Tick), (s.comp x).close = some p → p.report = some d →
      (s.loading = false → exec (.strokeReport x true) s = .next
        (strokeTest x (modComp x (fun c => { c with close := some { p with report := none, made := p.made + 1, retry := false } }) s))) ∧
      (s.loading = false → p.retry = false → exec (.strokeReport x false) s = .next
        (strokeTest x (modComp x (fun c => { c with close := some { p with report := none, retry := true } }) s))) ∧
      (s.loading = false → p.retry = true → exec (.strokeReport x false) s = .next (staplerFault x .notFormed s)) ∧
      (reached s.now d = true → exec (.reportTimerExpiry x) s = .next (staplerFault x .noReport s)) ∧
      ∀ (k : Packet) (c : StaplerCause), (s.comp x).packet = some k →
        staplerFault x c s = closeEnd x (notify
          (.staplerFault x { k with flags := { k.flags with stapleFailed := true } } (p.made + 1) c)
          (modComp x (fun q =>
            { q with
              fault := true, close := some { p with report := none, noMore := true },
              packet := some { k with flags := { k.flags with stapleFailed := true } } }) s))

/-- The end of a transfer (R107, R108): at a paper-absent event in a running TRANSFER or at its timer the packet goes on
board the shuttle, which starts its outbound move unless the TOWER cover is open (R126); the stack is emptied, the set's
assignment is cleared with its counts left as they are (log 17), and the reserved set is promoted and gathers, with a close
condition test that finds an empty stack (R99); with none the compiler is OUT when OUT-pending, else EMPTY with its COMPILE
latch (R117, R119); then the release and pace tests. That the reached mark is clear as the packet comes on board is the
model's choice (log 48). A paper-absent event outside TRANSFER, or in a suspended one (R112), changes the reading and makes
the leaving test (R116, R70). An expiry that is not due changes nothing (log 3). -/
def Obligations.TransferEndsWithThePacketAboard : Prop :=
  (∀ (x : CompilerId) (s : State), s.loading = false → ((s.comp x).state ≠ .transfer ∨ (s.comp x).transfer = none) →
    exec (.compilerPaperAbsent x) s = .next
      (leaveTest (modComp x (fun c => { c with paper := false }) { s with pins := Pins.setCompPaper x false s.pins }))) ∧
  (∀ (x : CompilerId) (s : State), ((s.comp x).state ≠ .transfer ∨ expired s.now (s.comp x).transfer = false) →
    exec (.transferTimerExpiry x) s = .next s) ∧
  (∀ (x : CompilerId) (d : Tick) (s : State), (s.comp x).state = .transfer → (s.comp x).transfer = some d →
    (s.loading = false → exec (.compilerPaperAbsent x) s = .next (leaveTest (transferEnd x
      (modComp x (fun c => { c with paper := false }) { s with pins := Pins.setCompPaper x false s.pins })))) ∧
    (reached s.now d = true → exec (.transferTimerExpiry x) s = .next (transferEnd x s))) ∧
  ∀ (x : CompilerId) (p : Packet) (k : SetKey) (s : State), (s.comp x).packet = some p → (s.comp x).current = some k →
    ∃ (h : Shuttle) (v w : State), transferEnd x s = paceTest (releaseTest v) ∧
      (s.shuttle.suspended = true → h = { s.shuttle with
        state := .moving, packet := some p, blockedSent := (s.comp x).blockedSent, granted := none, move := none,
        waiting := false, reachedMark := false }) ∧
      (∀ t : Target, s.shuttle.suspended = false → s.shuttle.target = some t → h = { s.shuttle with
        state := .moving, packet := some p, blockedSent := (s.comp x).blockedSent, granted := none, waiting := false,
        reachedMark := false,
        move := some
          { leg := .outbound, origin := 0, dest := t.level,
            timeout := some (after s.now (s.tBase + t.level * s.tLevel + s.shuttleMargin)) },
        free := some (after s.now (2 * (s.tBase + t.level * s.tLevel) + s.tDrop)) }) ∧
      w = modSet k (fun q => { q with assigned := none }) (modComp x (fun c =>
        { c with
          packet := none, transfer := none, undeliverable := false, blockedSent := false, current := none, settle := none,
          count := 0, thickness := 0, tags := [] }) { s with shuttle := h }) ∧
      (∀ (y : SetKey) (u : State), (s.comp x).reserved = some y →
        u = modSet y (fun q => { q with assigned := some (x, .current) })
          (modComp x (fun c => { c with state := .gathering, current := some y, reserved := none }) w) →
        v = closeTest x u ∧ ∀ q : SetRec, u.getSet y = some q → q.pages ≠ 0 → v = u) ∧
      ((s.comp x).reserved = none → (s.comp x).outPending = true →
        v = modComp x (fun c => { c with state := .out, outPending := false }) w) ∧
      ((s.comp x).reserved = none → (s.comp x).outPending = false →
        v = supplyTests x (s.comp x).staples (s.comp x).threshold (modComp x (fun c =>
          { c with
            state := .empty, latched := s.staged.compile, staples := min c.staples (s.staged.compile.getD 5 0) }) w))

/-- Cartridge events (R110): an insertion sets the count to the latched capacity and clears FAULT, with no notice; a removal
sets the count to 0, leaves FAULT, and sends Staple Out when the count was above 0. The tests of any change of a count
(R111): Staple Out when it comes to 0 from above, Staple Low when it comes from above the threshold to 1 or more and at or
below it. -/
def Obligations.CartridgeEventsSetTheCount : Prop :=
  (∀ (x : CompilerId) (n th : Nat) (s : State),
    (0 < n → (s.comp x).staples = 0 → supplyTests x n th s = notify (.stapleOut x 0 (s.comp x).threshold) s) ∧
    (th < n → 0 < (s.comp x).staples → (s.comp x).staples ≤ (s.comp x).threshold →
      supplyTests x n th s = notify (.stapleLow x (s.comp x).staples (s.comp x).threshold) s) ∧
    ((n = 0 ∨ 0 < (s.comp x).staples) → (n ≤ th ∨ (s.comp x).staples = 0 ∨ (s.comp x).threshold < (s.comp x).staples) →
      supplyTests x n th s = s)) ∧
  ∀ (x : CompilerId) (s : State), s.loading = false →
    exec (.cartridgeInserted x) s = .next (modComp x (fun c => { c with staples := (s.comp x).capacity, fault := false })
      { s with pins := Pins.setCart x true s.pins }) ∧
    ((s.comp x).staples = 0 → exec (.cartridgeRemoved x) s = .next
      (modComp x (fun c => { c with staples := 0 }) { s with pins := Pins.setCart x false s.pins })) ∧
    ((s.comp x).staples ≠ 0 → exec (.cartridgeRemoved x) s = .next (notify (.stapleOut x 0 (s.comp x).threshold)
      (modComp x (fun c => { c with staples := 0 }) { s with pins := Pins.setCart x false s.pins })))

/-- Compiler Service (R117, R118): OUT takes an EMPTY compiler out at once and marks any other OUT-pending; IN brings an OUT
compiler to EMPTY with its COMPILE latch, or to CLEAR_WAIT with paper in it, and clears OUT-pending; the reply shows the state
and the mark. A compiler other than A and B and an action other than OUT and IN are refused BAD_FIELD. That the notices come
before the reply is the model's choice (log 14; R165 leaves either order). -/
def Obligations.CompilerServiceTakesOutAndIn : Prop :=
  (∀ (q a b : Byte) (s : State), RequestsTaken s → ((a ≠ 1 ∧ a ≠ 2) ∨ (b ≠ 0 ∧ b ≠ 1)) →
    exec (.compilerServiceOut q [a, b]) s = .next (s.hunted.replied 0x0D q .refused (some .badField) [0, 0]) ∧
    exec (.compilerServiceIn q [a, b]) s = .next (s.hunted.replied 0x0D q .refused (some .badField) [0, 0])) ∧
  ∀ (q : Byte) (x : CompilerId) (s : State), RequestsTaken s →
    ∃ t v : State,
      exec (.compilerServiceOut q [byte (compilerIdCode x), 0]) s = .next
        (t.replied 0x0D q .ok none [byte (t.comp x).state.code, if (t.comp x).outPending then 1 else 0]) ∧
      ((s.comp x).state = .empty → t = paceTest (modComp x (fun c => { c with state := .out }) s.hunted)) ∧
      ((s.comp x).state = .out → t = s.hunted) ∧
      ((s.comp x).state ≠ .empty → (s.comp x).state ≠ .out →
        t = modComp x (fun c => { c with outPending := true }) s.hunted) ∧
      exec (.compilerServiceIn q [byte (compilerIdCode x), 1]) s = .next
        (v.replied 0x0D q .ok none [byte (v.comp x).state.code, if (v.comp x).outPending then 1 else 0]) ∧
      ((s.comp x).state = .out → (s.comp x).paper = false →
        v = paceTest (compileLatch x (modComp x (fun c => { c with state := .empty }) s.hunted))) ∧
      ((s.comp x).state = .out → (s.comp x).paper = true →
        v = paceTest (modComp x (fun c => { c with state := .clearWait, cycleMark := s.pins.front }) s.hunted)) ∧
      ((s.comp x).state ≠ .out → v = modComp x (fun c => { c with outPending := false }) s.hunted)

/-- Events that change one reading and nothing more: a compiler's paper-present event (R116), a bin's paper events (R138), the
shelf's not-empty event (R141) and the shuttle's home events (R131). The shelf's empty event also sets height and count to 0,
clears the full-from-start-up mark, runs an arbitration and lets a waiting shuttle try again (R141, R127). -/
def Obligations.ReadingEventsAndTheShelf : Prop :=
  ∀ s : State, s.loading = false →
    (∀ x : CompilerId, exec (.compilerPaperPresent x) s = .next
      (modComp x (fun c => { c with paper := true }) { s with pins := Pins.setCompPaper x true s.pins })) ∧
    (∀ b : Fin 24, exec (.binPaperPresent b) s = .next { s with
      pins := Pins.setBinPaper b true s.pins, bins := s.bins.modify b.val (fun q => { q with paper := true }) }) ∧
    (∀ b : Fin 24, exec (.binPaperAbsent b) s = .next { s with
      pins := Pins.setBinPaper b false s.pins, bins := s.bins.modify b.val (fun q => { q with paper := false }) }) ∧
    exec .shelfNotEmpty s = .next { s with
      pins := { s.pins with shelfEmpty := false }, shelf := { s.shelf with readsEmpty := false } } ∧
    (∀ v : Bool, exec (.shuttleHome v) s = .next { s with
      pins := { s.pins with home := v }, shuttle := { s.shuttle with home := v } }) ∧
    exec .shelfEmpty s = .next (retryWaiting (arbitrate { s with
      pins := { s.pins with shelfEmpty := true },
      shelf := { height := 0, count := 0, fullMark := false, readsEmpty := true } }))

/-! ## Shuttle, bins and delivery (07) -/

/-- When a bin and when the shelf take a packet (R124). How a packet finds a target (R125): its run's active bin when that takes
it, else the spill (an OWNED active bin becomes FULL with its notice; the first bin of the mask in fill order that is FREE is
claimed, or one the run owns besides the active one becomes active) and then the active bin, else the shelf, else none. The
arbitration (R122) takes the standing offers of a DOCKED, free shuttle in order of packet sequence: the first with a target is
granted (R123, R107), one without is marked undeliverable (R121). -/
def Obligations.TargetsTakeAPacketByThreeTests : Prop :=
  (∀ (s : State) (p : Packet) (b : Fin 24),
    targetTakes s p (.bin b) = true ↔
      ((s.getBin b).state = .owned ∧ (s.getBin b).owner = some p.key.run) ∧
      (s.getBin b).height + p.thickness ≤ s.binCapacity b ∧ (s.getBin b).packets.length < 40) ∧
  (∀ (s : State) (p : Packet),
    targetTakes s p .shelf = true ↔ s.shelf.fullMark = false ∧ s.shelf.height + p.thickness ≤ s.shelfCapacity) ∧
  (∀ (s u : State) (p : Packet) (t : Target), selectTarget p s = (u, some t) → targetTakes u p t = true) ∧
  (∀ (s : State) (p : Packet) (t : Target), s.shuttle.target = some t → targetTakes s p t = true →
    checkAtLevel p s = dropStart t p s) ∧
  (∀ (p : Packet) (r : Run) (s : State), s.getRun p.key.run = some r →
    (∀ b : Fin 24, r.active = some b → targetTakes s p (.bin b) = true → selectTarget p s = (s, some (.bin b))) ∧
    ((∀ b : Fin 24, r.active = some b → targetTakes s p (.bin b) = false) → ∃ u v : State,
      ((∀ b : Fin 24, r.active = some b → (s.getBin b).state ≠ .owned) → u = s) ∧
      (∀ b : Fin 24, r.active = some b → (s.getBin b).state = .owned →
        u = notify (.binFull b (s.getBin b).owner (s.getBin b).height (s.binCapacity b) (s.getBin b).packets.length)
          (modBin b (fun q => { q with state := .full }) s)) ∧
      (∀ (found : Option (Fin 24)) (bins : List (Fin 24)), bins = (if r.order = .ascending then allBins else allBins.reverse) →
        found = bins.find? (fun b => r.mask.getLsbD b.val && ((u.getBin b).state == .free ||
          ((u.getBin b).state == .owned && (u.getBin b).owner == some p.key.run && r.active != some b))) →
        (found = none → v = u) ∧
        ∀ b : Fin 24, found = some b →
          ((u.getBin b).state = .free → v =
            { u with
              bins := u.bins.modify b.val (fun q => { q with state := .owned, owner := some p.key.run }),
              runs := u.runs.modify p.key.run.val
                (fun o => o.map (fun q => { q with owned := q.owned ++ [b], active := some b })) }) ∧
          ((u.getBin b).state = .owned → v =
            { u with runs := u.runs.modify p.key.run.val (fun o => o.map (fun q => { q with active := some b })) })) ∧
      (∀ b : Fin 24, v.activeBin p.key.run = some b → targetTakes v p (.bin b) = true →
        selectTarget p s = (v, some (.bin b))) ∧
      ((∀ b : Fin 24, v.activeBin p.key.run = some b → targetTakes v p (.bin b) = false) →
        selectTarget p s = (v, if targetTakes v p .shelf = true then some .shelf else none)))) ∧
  (∀ s : State,
    (s.shuttle.state ≠ .docked ∨ s.shuttle.suspended = true ∨ s.shuttle.packet ≠ none → arbitrate s = s) ∧
    (s.shuttle.state = .docked → s.shuttle.suspended = false → s.shuttle.packet = none → arbitrate s = takeOffers s.offers s) ∧
    (∀ (x : CompilerId) (p : Packet), (x, p) ∈ s.offers ↔ (s.comp x).state = .ready ∧ (s.comp x).packet = some p) ∧
    ∀ p q : CompilerId × Packet, s.offers = [p, q] → 0 ≤ (q.2.seq - p.2.seq).toInt ∨ (q.2.seq - p.2.seq).toInt = -32768) ∧
  (∀ (x : CompilerId) (p : Packet) (rest : List (CompilerId × Packet)) (s u : State), takeOffers [] s = s ∧
    (∀ t : Target, selectTarget p s = (u, some t) → takeOffers ((x, p) :: rest) s = grant x t u) ∧
    (selectTarget p s = (u, none) → takeOffers ((x, p) :: rest) s = takeOffers rest (markUndeliverable x p u))) ∧
  ∀ (x : CompilerId) (t : Target) (p : Packet) (s : State), ∃ u v : State,
    grant x t s = paceTest (modComp x (fun c =>
      { c with
        state := .transfer, undeliverable := false, transferStart := s.now,
        transfer := if s.pins.front = true then none else some (after s.now (c.tTransfer + 5000)) })
      { s with
        shuttle := { s.shuttle with
          state := .loading, granted := some x, target := some t, level := 0,
          free := some (after s.now
            ((s.comp x).tTransfer + (2 * (s.tBase + t.level * s.tLevel) + s.tDrop))) } }) ∧
    u = modComp x (fun c => { c with undeliverable := true, blockedSent := true }) s ∧
    v = (if (s.comp x).blockedSent = true then u
      else notify (.deliveryBlocked (some x) none p (s.activeBin p.key.run)) u) ∧
    markUndeliverable x p s = (if (s.comp x).undeliverable = true then v else paceTest v)

/-- The end of an outbound or retarget move (R127, R128): the level is the destination; a target that takes the packet gets
it: DROPPING with the drop timer, the packet at the end of the bin's list, or counted onto the shelf with OVERFLOW, a Packet
Delivered notice, and the set retired (R13). When the target does not take it, a new selection is made: with a target the
shuttle starts a retarget move, with none it waits with no target (log 42) and the first such finding sends Delivery Blocked
(R121). With no move in progress the event is ignored. That the reached mark is cleared as the move ends is the model's
choice (log 48), and that the level stays the last one reached while a retarget move runs its reading (log 41). -/
def Obligations.ArrivalDropsThePacket : Prop :=
  (∀ (k : SetKey) (s : State), retireSet k s = finishChecks k.run (completionTest k.run
    (modRun k.run (fun r => { r with delivered := r.delivered + 1, done := r.done ||| doneBit k.set }) (dropSet k s)))) ∧
  (∀ s : State, s.loading = false → s.shuttle.move = none → exec .positionReached s = .next s) ∧
  (∀ (m : Move) (p : Packet) (s : State), s.loading = false → s.shuttle.suspended = false →
    s.shuttle.state = .moving → s.shuttle.move = some m → m.leg ≠ .return → s.shuttle.packet = some p →
    (∀ t : Target, s.shuttle.target = some t → targetTakes s p t = false) →
    ∃ u : State, u = { s with shuttle := { s.shuttle with move := none, reachedMark := false, level := m.dest } } ∧
      (∀ (t : Target) (v : State) (est : Nat), selectTarget p u = (v, some t) →
        est = s.tBase + ((m.dest - t.level) + (t.level - m.dest)) * s.tLevel →
        exec .positionReached s = .next { v with
          shuttle := { s.shuttle with
            state := .moving, target := some t, waiting := false, reachedMark := false, level := m.dest,
            move := some
              { leg := .retarget, origin := m.dest, dest := t.level, timeout := some (after s.now (est + s.shuttleMargin)) },
            free := some (after s.now (est + s.tDrop + (s.tBase + t.level * s.tLevel))) } }) ∧
      ∀ v w : State, selectTarget p u = (v, none) → w = { v with
          shuttle := { s.shuttle with
            move := none, reachedMark := false, level := m.dest, waiting := true, target := none, blockedSent := true } } →
        exec .positionReached s = .next (if s.shuttle.blockedSent = true then w
          else notify (.deliveryBlocked none (some m.dest) p (v.activeBin p.key.run)) w)) ∧
  ∀ (m : Move) (p : Packet) (t : Target) (s : State), s.loading = false → s.shuttle.suspended = false →
    s.shuttle.state = .moving → s.shuttle.move = some m → m.leg ≠ .return → s.shuttle.packet = some p →
    s.shuttle.target = some t → targetTakes s p t = true →
    ∃ h : Shuttle,
      h = { s.shuttle with
        state := .dropping, move := none, reachedMark := false, level := m.dest, waiting := false,
        dropEnd := some (after s.now s.tDrop) } ∧
      (∀ b : Fin 24, t = .bin b →
        exec .positionReached s = .next (retireSet p.key (modShuttle (fun h => { h with packet := none, blockedSent := false })
          (notify (.packetDelivered (.bin b) p)
            { s with
              shuttle := h, bins := s.bins.modify b.val (fun q => { q with packets := q.packets ++ [p] }) })))) ∧
      (t = .shelf →
        exec .positionReached s = .next (retireSet p.key (modShuttle (fun h => { h with packet := none, blockedSent := false })
          (notify (.packetDelivered .shelf { p with flags := { p.flags with overflow := true } })
            { s with
              shuttle := h,
              shelf := { s.shelf with height := s.shelf.height + p.thickness, count := s.shelf.count + 1 } }))))

/-- The drop timer's end and the end of the return (R129): RETURNING with a move from the level to 0 and its timeout, then
DOCKED at level 0 with the DELIVERY values latched and an arbitration. That the docking and its latch make one arbitration
between them is the model's reading (log 21), and that the reached mark is cleared its choice (log 48). -/
def Obligations.DropEndReturnsToTheDock : Prop :=
  (∀ (d : Tick) (s : State), s.shuttle.dropEnd = some d → reached s.now d = true →
    exec .dropEnd s = .next { s with
      shuttle := { s.shuttle with
        state := .returning, dropEnd := none, target := none,
        move := some
          { leg := .return, origin := s.shuttle.level, dest := 0,
            timeout := some (after s.now (s.tBase + s.shuttle.level * s.tLevel + s.shuttleMargin)) },
        free := some (after s.now (s.tBase + s.shuttle.level * s.tLevel)) } }) ∧
  ∀ (m : Move) (s : State), s.loading = false → s.shuttle.suspended = false → s.shuttle.state = .returning →
    s.shuttle.move = some m → m.leg = .return →
    exec .positionReached s = .next (arbitrate (copyDelivery { s with
      shuttle := { s.shuttle with
        state := .docked, level := 0, target := none, move := none, waiting := false, reachedMark := false,
        free := none } }))

/-- A move whose timeout is reached has failed (R130): FAULT with the cycle mark by the TOWER cover, a Shuttle Fault notice,
and a packet on board is counted as delivered, DELIVERY_UNCERTAIN, in no bin. That the reached mark is cleared with the move
is the model's choice (log 48). -/
def Obligations.MoveTimeoutFaultsTheShuttle : Prop :=
  ∀ (m : Move) (d : Tick) (s : State), s.shuttle.move = some m → m.timeout = some d → reached s.now d = true →
    ∃ u : State,
      u = notify (.shuttleFault m.leg m.origin m.dest s.shuttle.packet) { s with
        shuttle := { s.shuttle with
          state := .fault, move := none, waiting := false, reachedMark := false, cycleMark := s.pins.tower } } ∧
      (s.shuttle.packet = none → exec .moveTimeout s = .next (paceTest u)) ∧
      ∀ p : Packet, s.shuttle.packet = some p →
        exec .moveTimeout s = .next (paceTest (retireSet p.key
          (modShuttle (fun h => { h with packet := none, blockedSent := false, target := none })
            (notify (.packetDelivered .nowhere { p with flags := { p.flags with deliveryUncertain := true } }) u))))

/-- A position-reached event while suspended, or in FAULT, and the shuttle's exit from FAULT (R131): the mark is set or the
event is ignored; at a TOWER closing with the home reading active and the cycle mark set the shuttle docks with no target and
no packet, with the reading inactive the mark is cleared, and else it stays. A home event changes only the home reading. That
the Cover notice comes before what the cover changes, so before a Pace notice, is the model's choice (log 25). That the exit
makes one arbitration (log 21) and the pace test after it (log 43) is the model's reading, and that it clears the cycle mark
(log 49) and the reached mark (log 48) its choice. -/
def Obligations.FaultIsLeftByACoverCycleAtHome : Prop :=
  ∀ s : State, s.loading = false →
    (∀ m : Move, s.shuttle.suspended = true → s.shuttle.state ≠ .fault → s.shuttle.move = some m →
      exec .positionReached s = .next { s with shuttle := { s.shuttle with reachedMark := true } }) ∧
    (s.shuttle.state = .fault → exec .positionReached s = .next s) ∧
    (∃ u : State, u = paceTest (modShuttle (fun h => { h with suspended := false })
        (notify (.cover .tower false) { s with pins := { s.pins with tower := false } })) ∧
      (s.shuttle.state = .fault → exec .towerClose s = .next (faultExit u))) ∧
    (s.shuttle.home = true → s.shuttle.cycleMark = true →
      faultExit s = paceTest (arbitrate (copyDelivery { s with
        shuttle := { s.shuttle with
          cycleMark := false, packet := none, state := .docked, level := 0, target := none, move := none, waiting := false,
          reachedMark := false, free := none } }))) ∧
    (s.shuttle.home = true → s.shuttle.cycleMark = false → faultExit s = s) ∧
    (s.shuttle.home = false → faultExit s = { s with shuttle := { s.shuttle with cycleMark := false } }) ∧
    ∀ v : Bool, exec (.shuttleHome v) s = .next { s with
      pins := { s.pins with home := v }, shuttle := { s.shuttle with home := v } }

/-- The TOWER cover (R132, R133): each change sends a Cover notice and is followed by the pace test; an opening suspends the
shuttle and stops its timeout or its drop timer; at a closing each state goes on: an arbitration at the dock, the outbound
move of a packet on board, a suspended move ended as by a position-reached event or restarted with a full timeout, a new
selection of a waiting shuttle, a full T_drop of a stopped drop, the exit test in FAULT. That the Cover notice comes before
what the cover changes, so before a Pace notice, is the model's choice (log 25), and so is that the reached mark is cleared
as the move ends (log 48); that a docking makes one arbitration (log 21) and that a waiting shuttle waits for the closing
(log 20) is its reading. -/
def Obligations.TowerSuspendsTheShuttle : Prop :=
  (∀ (m : Move) (s : State), ∃ est : Nat, est = s.tBase + ((m.origin - m.dest) + (m.dest - m.origin)) * s.tLevel ∧
    restartMove m s = { s with
      shuttle := { s.shuttle with
        move := some { m with timeout := some (after s.now (est + s.shuttleMargin)) },
        free := some (after s.now
          (if m.leg = .return then est else est + s.tDrop + (s.tBase + m.dest * s.tLevel))) } }) ∧
  (∀ (m : Move) (s : State), s.loading = false → s.shuttle.suspended = false → s.shuttle.state ≠ .fault →
    s.shuttle.move = some m → exec .positionReached s = .next (moveEnd m s)) ∧
  (∀ (t : Target) (s : State), s.shuttle.target = some t → startOutbound s = { s with
    shuttle := { s.shuttle with
      state := .moving,
      move := some
        { leg := .outbound, origin := 0, dest := t.level,
          timeout := some (after s.now (s.tBase + t.level * s.tLevel + s.shuttleMargin)) },
      free := some (after s.now (2 * (s.tBase + t.level * s.tLevel) + s.tDrop)) } }) ∧
  (∀ s : State,
    (s.shuttle.state ≠ .moving ∨ s.shuttle.waiting = false ∨ s.shuttle.suspended = true ∨ s.shuttle.packet = none →
      retryWaiting s = s) ∧
    ∀ (p : Packet) (u : State), s.shuttle.state = .moving → s.shuttle.waiting = true → s.shuttle.suspended = false →
      s.shuttle.packet = some p →
      (selectTarget p s = (u, none) → retryWaiting s = u) ∧
      ∀ (t : Target) (est : Nat), selectTarget p s = (u, some t) →
        est = s.tBase + ((s.shuttle.level - t.level) + (t.level - s.shuttle.level)) * s.tLevel →
        retryWaiting s = { u with
          shuttle := { s.shuttle with
            target := some t, waiting := false,
            move := some
              { leg := .retarget, origin := s.shuttle.level, dest := t.level,
                timeout := some (after s.now (est + s.shuttleMargin)) },
            free := some (after s.now (est + s.tDrop + (s.tBase + t.level * s.tLevel))) } }) ∧
  ∀ s : State, s.loading = false →
    ∃ u v : State, u = notify (.cover .tower true) { s with pins := { s.pins with tower := true } } ∧
      v = paceTest (modShuttle (fun h => { h with suspended := false })
        (notify (.cover .tower false) { s with pins := { s.pins with tower := false } })) ∧
      exec .towerOpen s = .next (paceTest (modShuttle Shuttle.suspend u)) ∧
      (Shuttle.suspend s.shuttle).suspended = true ∧
      (s.shuttle.state = .dropping → (Shuttle.suspend s.shuttle).dropEnd = none) ∧
      (s.shuttle.state = .moving ∨ s.shuttle.state = .returning →
        (Shuttle.suspend s.shuttle).move = s.shuttle.move.map (fun m => { m with timeout := none }) ∧
        (Shuttle.suspend s.shuttle).reachedMark = false) ∧
      (s.shuttle.state = .fault → (Shuttle.suspend s.shuttle).cycleMark = true) ∧
      (s.shuttle.state = .docked ∨ s.shuttle.state = .loading →
        Shuttle.suspend s.shuttle = { s.shuttle with suspended := true }) ∧
      (s.shuttle.state = .docked → exec .towerClose s = .next (arbitrate v)) ∧
      (s.shuttle.state = .loading → exec .towerClose s = .next v) ∧
      (s.shuttle.state = .fault → exec .towerClose s = .next (faultExit v)) ∧
      (s.shuttle.state = .moving → s.shuttle.move = none → s.shuttle.waiting = false →
        exec .towerClose s = .next (startOutbound v)) ∧
      (s.shuttle.state = .moving → s.shuttle.move = none → s.shuttle.waiting = true →
        exec .towerClose s = .next (retryWaiting v)) ∧
      (s.shuttle.state = .dropping → s.shuttle.dropEnd = none →
        exec .towerClose s = .next (modShuttle (fun h => { h with dropEnd := some (after s.now s.tDrop) }) v)) ∧
      (∀ m : Move, s.shuttle.state = .moving ∨ s.shuttle.state = .returning → s.shuttle.move = some m →
        s.shuttle.reachedMark = true → exec .towerClose s = .next (moveEnd m v)) ∧
      ∀ m : Move, s.shuttle.state = .moving ∨ s.shuttle.state = .returning → s.shuttle.move = some m →
        s.shuttle.reachedMark = false → m.timeout = none → exec .towerClose s = .next (restartMove m v)

/-- A door opening (R136): the door reads open, and a bin that is not OPEN becomes OPEN with its state kept as its pre-open
state; owner, list and the shuttle's target stand, and an OPEN bin takes no packet. -/
def Obligations.DoorOpeningKeepsTheBin : Prop :=
  ∀ (b : Fin 24) (s : State), s.loading = false → s.bins.length = 24 →
    ∃ t : State, exec (.binDoorOpen b) s = .next t ∧
      t = { s with pins := Pins.setDoor b true s.pins, bins := t.bins } ∧
      (∀ c : Fin 24, c ≠ b → t.getBin c = s.getBin c) ∧
      ((s.getBin b).state ≠ .opened →
        t.getBin b = { s.getBin b with door := true, preOpen := some (s.getBin b).state, state := .opened }) ∧
      ((s.getBin b).state = .opened → t.getBin b = { s.getBin b with door := true }) ∧
      ∀ p : Packet, targetTakes t p (.bin b) = false

/-- A door closing (R137): with no paper an OPEN bin is collected, its list emptied with a Bin Collected notice, and goes to
the state its pre-open state and its owner run give; with paper the pre-open state is restored, FREE becoming HELD. A bin
that becomes FREE or OWNED runs an arbitration, after which a waiting shuttle tries again (R122, R127); a bin with an owner
that is given up is released (R135, said in AbortSetClosesOrMarks). -/
def Obligations.DoorClosingCollectsOrRestores : Prop :=
  (∀ (b : Fin 24) (st : BinState) (s : State),
    (st = .free ∨ st = .owned →
      settleBin b st s = retryWaiting (arbitrate (modBin b (fun q => { q with state := st }) s))) ∧
    (st ≠ .free → st ≠ .owned → settleBin b st s = modBin b (fun q => { q with state := st }) s) ∧
    ((s.getBin b).owner = none → settleReleased b st s = settleBin b st s) ∧
    ((s.getBin b).owner ≠ none → settleReleased b st s = releaseBin b st s)) ∧
  ∀ (b : Fin 24) (pre : BinState) (s : State), s.loading = false → s.bins.length = 24 → (s.getBin b).state = .opened →
    (s.getBin b).preOpen = some pre →
    ∃ u : State, u = modBin b (fun q => { q with door := false }) { s with pins := Pins.setDoor b false s.pins } ∧
      ((s.getBin b).paper = true → exec (.binDoorClose b) s = .next
        (settleBin b (if pre = .free then .held else pre) (modBin b (fun q => { q with preOpen := none }) u))) ∧
      ∀ v : State, (s.getBin b).paper = false →
        v = notify (.binCollected b (ownerLabel s (s.getBin b).owner) (s.getBin b).packets.length)
          (modBin b (fun q => { q with packets := [], preOpen := none }) u) →
        (pre = .owned ∨ pre = .full → ownerOpen s b = true → exec (.binDoorClose b) s = .next (settleBin b .owned v)) ∧
        (pre = .out → ownerOpen s b = true → exec (.binDoorClose b) s = .next (settleBin b .out v)) ∧
        (pre = .owned ∨ pre = .full → ownerOpen s b = false →
          exec (.binDoorClose b) s = .next (settleReleased b .free v)) ∧
        (pre = .out → ownerOpen s b = false → exec (.binDoorClose b) s = .next (settleReleased b .out v)) ∧
        (pre = .free ∨ pre = .held → exec (.binDoorClose b) s = .next (settleReleased b .free v))

/-- Bin Service (R139): a zero mask and an unknown action are refused; the named bins are taken in ascending order and the
reply counts those changed; OUT puts a bin OUT, or marks an OPEN bin's pre-open state, with owner and list kept; IN decides
the state of an OUT bin, and the pre-open state of an OPEN one, from its owner, list and paper. That the count takes in only
what each named bin's own turn changes in that bin, and no bin that an arbitration of the service changes, is the model's
choice (log 57). That the notices of the arbitrations come before the reply is the model's choice (log 14; R165 leaves either
order). -/
def Obligations.BinServiceTakesOutAndIn : Prop :=
  (∀ (q : Byte) (p : List Byte) (s : State), RequestsTaken s → p.length = 4 →
    (fieldLe p 0 3 = 0 ∨ 1 < field p 3 →
      exec (.binServiceOut q p) s = .next (s.hunted.replied 0x0C q .refused (some .badField) [0])) ∧
    (fieldLe p 0 3 ≠ 0 → field p 3 = 0 →
      exec (.binServiceOut q p) s = .next
        ((serveBins .out (maskBins (fieldLe p 0 3)) s.hunted).1.replied 0x0C q .ok none
          [byte (serveBins .out (maskBins (fieldLe p 0 3)) s.hunted).2])) ∧
    (fieldLe p 0 3 ≠ 0 → field p 3 = 1 →
      exec (.binServiceIn q p) s = .next
        ((serveBins .in_ (maskBins (fieldLe p 0 3)) s.hunted).1.replied 0x0C q .ok none
          [byte (serveBins .in_ (maskBins (fieldLe p 0 3)) s.hunted).2]))) ∧
  (∀ (b : Fin 24) (s : State), (serveBin .out b s).1 = modBin b (fun x =>
    if x.state = .opened then { x with preOpen := some .out } else { x with state := .out }) s) ∧
  (∀ (b : Fin 24) (s : State), (s.getBin b).state = .out → (s.getBin b).owner = none →
    (serveBin .in_ b s).1 = settleBin b (if (s.getBin b).paper then .held else .free) s) ∧
  (∀ (b : Fin 24) (s : State), (s.getBin b).state = .out → ownerOpen s b = true →
    (serveBin .in_ b s).1 = settleBin b
      (if (s.getBin b).height < s.binCapacity b ∧ (s.getBin b).packets.length < 40 then .owned else .full) s) ∧
  (∀ (b : Fin 24) (s : State), (s.getBin b).state = .out → (s.getBin b).owner ≠ none → ownerOpen s b = false →
    ((s.getBin b).packets = [] → (serveBin .in_ b s).1 = releaseBin b .free s) ∧
    ((s.getBin b).packets ≠ [] → (serveBin .in_ b s).1 = settleBin b .full s)) ∧
  (∀ (b : Fin 24) (s : State), (s.getBin b).state = .opened → (s.getBin b).preOpen = some .out →
    (serveBin .in_ b s).1 = modBin b (fun x => { x with preOpen := some (inResult s b).1 })
      (if (inResult s b).2 = true then releaseOpen b s else s)) ∧
  (∀ (b : Fin 24) (s : State), (s.getBin b).state ≠ .out → (s.getBin b).state ≠ .opened ∨ (s.getBin b).preOpen ≠ some .out →
    (serveBin .in_ b s).1 = s) ∧
  (∀ (a : ServiceAction) (b : Fin 24) (bs : List (Fin 24)) (s : State),
    (serveBins a (b :: bs) s).1 = (serveBins a bs (serveBin a b s).1).1 ∧
    (serveBins a (b :: bs) s).2 = (serveBin a b s).2 + (serveBins a bs (serveBin a b s).1).2 ∧
    serveBins a [] s = (s, 0) ∧
    (((serveBin a b s).1.getBin b).state = (s.getBin b).state →
      ((serveBin a b s).1.getBin b).preOpen = (s.getBin b).preOpen → (serveBin a b s).2 = 0) ∧
    (((serveBin a b s).1.getBin b).state ≠ (s.getBin b).state ∨
      ((serveBin a b s).1.getBin b).preOpen ≠ (s.getBin b).preOpen → (serveBin a b s).2 = 1))

/-! ## Recovery (08) -/

/-- A present recovery list does not change while it is present (R142): a command leaves it as it stands or makes it absent. -/
def Obligations.RecoveryListStandsWhilePresent : Prop :=
  ∀ (c : Instr) (l : RecoveryList) (s t : State), DeviceLaw s → s.recovery = some l → exec c s = .next t →
    t.recovery = some l ∨ t.recovery = none

/-- Recovery Query (R152): the checks of its fields, and the reply with no list and with one; the list is not changed. The
fields of a list that is absent are the model's reading (log 15). -/
def Obligations.RecoveryQueryReadsTheList : Prop :=
  ∀ (q a b : Byte) (s : State), RequestsTaken s →
    (31 < a.toNat ∨ b = 0 ∨ 8 < b.toNat →
      exec (.recoveryQuery q [a, b]) s = .next (s.hunted.replied 0x07 q .refused (some .badField) (zeros 11))) ∧
    (a.toNat ≤ 31 → b ≠ 0 → b.toNat ≤ 8 → s.recovery = none →
      exec (.recoveryQuery q [a, b]) s = .next
        (s.hunted.replied 0x07 q .ok none ([0, 0] ++ [0, 0, 0xFF] ++ zeros 5 ++ [0xFF]))) ∧
    ∀ (l : RecoveryList) (es : List RecoveryEntry), a.toNat ≤ 31 → b ≠ 0 → b.toNat ≤ 8 → s.recovery = some l →
      es = (l.entries.drop a.toNat).take b.toNat →
      exec (.recoveryQuery q [a, b]) s = .next
        (s.hunted.replied 0x07 q .ok none
          ([1, byte l.entries.length] ++ l.halt.bytes l.overflow ++ es.flatMap RecoveryEntry.bytes ++
            [byte (if es = [] ∨ l.entries.length ≤ a.toNat + es.length then 0xFF else a.toNat + es.length)]))

/-- Resume (R153): in RECOVER the list becomes absent, the transport enters OFF and the reply counts the RECOVERING sets; in
HALT it is refused HALTED and elsewhere NOT_FOUND, and a refused Resume changes nothing. -/
def Obligations.ResumeClearsTheList : Prop :=
  ∀ (q : Byte) (s : State), RequestsTaken s →
    (s.tracker.transport = .recover →
      exec (.resume q []) s = .next
        (State.replied { s.hunted with tracker := { s.tracker with transport := .off }, recovery := none } 0x06 q .ok none
          [byte (s.setRecs.countP (fun x => x.state == .recovering))])) ∧
    (s.tracker.transport = .halt →
      exec (.resume q []) s = .next (s.hunted.replied 0x06 q .refused (some .halted) [0])) ∧
    (s.tracker.transport = .off ∨ s.tracker.transport = .spinup ∨ s.tracker.transport = .run →
      exec (.resume q []) s = .next (s.hunted.replied 0x06 q .refused (some .notFound) [0]))

/-! ## Parameters (10) and tables (09) -/

/-- Set Parameter (R171): an unknown id and a flag field out of range are refused; else the value, moved to the nearest end
of its range, is staged and reaches the latch point of its group, and the reply shows the staged value. A DELIVERY latch
(R140): the staged values in force, and each bin above its new capacity acted on: OWNED becomes FULL, an OPEN bin's pre-open
state OWNED becomes FULL, each with a Bin Full notice; any other stands. That the bins are taken in ascending number (log 47)
and that the notices of a DELIVERY latch come before the reply (log 14; R165 leaves either order) is the model's choice. -/
def Obligations.SetParameterStagesTheClampedValue : Prop :=
  (∀ s : State, copyDelivery s = allBins.foldl (fun t b => overfullBin b t)
    { s with latched := { s.latched with delivery := s.staged.delivery } }) ∧
  allBins.map (·.val) = List.range 24 ∧
  (∀ (b : Fin 24) (s : State),
    ((s.getBin b).height ≤ s.binCapacity b → overfullBin b s = s) ∧
    (s.binCapacity b < (s.getBin b).height →
      ((s.getBin b).state = .owned → overfullBin b s =
        notify (.binFull b (s.getBin b).owner (s.getBin b).height (s.binCapacity b) (s.getBin b).packets.length)
          (modBin b (fun q => { q with state := .full }) s)) ∧
      ((s.getBin b).state = .opened → (s.getBin b).preOpen = some .owned → overfullBin b s =
        notify (.binFull b (s.getBin b).owner (s.getBin b).height (s.binCapacity b) (s.getBin b).packets.length)
          (modBin b (fun q => { q with preOpen := some .full }) s)) ∧
      ((s.getBin b).state ≠ .owned → ((s.getBin b).state ≠ .opened ∨ (s.getBin b).preOpen ≠ some .owned) →
        overfullBin b s = s))) ∧
  (∀ (q : Byte) (p : List Byte) (s : State), RequestsTaken s → p.length = 5 →
    (paramOf (field p 0) = none →
      exec (.setParameter q p) s = .next (s.hunted.replied 0x0A q .refused (some .badField) (zeros 5))) ∧
    ∀ a : Param, paramOf (field p 0) = some a →
      (a.group = .link → a.high < fieldLe p 1 4 →
        exec (.setParameter q p) s = .next (s.hunted.replied 0x0A q .refused (some .badField) (zeros 5))) ∧
      ((a.group ≠ .link ∨ fieldLe p 1 4 ≤ a.high) →
        ∃ t : State, t = latchStaged a.group (stage a (a.clamp (fieldLe p 1 4)) s.hunted) ∧
          exec (.setParameter q p) s = .next
            (t.replied 0x0A q (if a.clamp (fieldLe p 1 4) = fieldLe p 1 4 then .ok else .clamped) none
              (byte (field p 0) :: le 4 (t.stagedValue a))))) ∧
  (∀ (id v : Nat) (a : Param), paramOf id = some a → a.low ≤ a.clamp v ∧ a.clamp v ≤ a.high ∧
    (a.low ≤ v → v ≤ a.high → a.clamp v = v) ∧ (v < a.low → a.clamp v = a.low) ∧ (a.high < v → a.clamp v = a.high)) ∧
  ∀ s : State, latchStaged .path s = s ∧ latchStaged .media s = s ∧ latchStaged .compile s = s ∧
    latchStaged .link s = { s with latched := { s.latched with mask := s.staged.mask } } ∧
    (s.shuttle.state = .docked → latchStaged .delivery s = arbitrate (copyDelivery s)) ∧
    (s.shuttle.state ≠ .docked → latchStaged .delivery s = s)

/-- Get Parameter, Read Table and Status (R172, R167, R166): the state but for the notices-lost flag of a Status is not
changed, and the reply carries what the rules name. The two bytes of 0 in the body of a refused Read Table, and the 26 of a
refused Get Parameter, are the model's reading (log 15). -/
def Obligations.ReadingRequestsChangeNothing : Prop :=
  ∀ (q : Byte) (s : State), RequestsTaken s →
    (∀ b : Byte, paramOf b.toNat = none →
      exec (.getParameter q [b]) s = .next (s.hunted.replied 0x0B q .refused (some .badField) (zeros 26))) ∧
    (∀ (b : Byte) (a : Param), paramOf b.toNat = some a →
      exec (.getParameter q [b]) s = .next (s.hunted.replied 0x0B q .ok none
        ([b, byte a.group.code] ++ le 4 a.low ++ le 4 a.high ++ le 4 a.default ++ le 4 (s.stagedValue a) ++
          le 4 (s.latchedValue a .a) ++ le 4 (s.latchedValue a .b)))) ∧
    (exec (.status q []) s = .next
      (State.replied { s.hunted with link := { s.hunted.link with lost := false } } 0x09 q .ok none (statusBytes s.hunted))) ∧
    (∀ a b c d : Byte,
      (tableOf a.toNat = none ∨ (tableOf a.toNat = some .binPackets ∧ 23 < b.toNat) ∨ d = 0 ∨ 8 < d.toNat ∨
        (∃ t : TableCode, tableOf a.toNat = some t ∧ t.lastIndex < c.toNat)) →
      exec (.readTable q [a, b, c, d]) s = .next (s.hunted.replied 0x08 q .refused (some .badField) [0, 0])) ∧
    ∀ (a b c d : Byte) (t : TableCode), tableOf a.toNat = some t → (t = .binPackets → b.toNat ≤ 23) → d ≠ 0 →
      d.toNat ≤ 8 → c.toNat ≤ t.lastIndex →
      exec (.readTable q [a, b, c, d]) s = .next (s.hunted.replied 0x08 q .ok none
        ([a] ++ (readRecords (tableRecords s b.toNat t) c.toNat d.toNat).1 ++
          [byte (readRecords (tableRecords s b.toNat t) c.toNat d.toNat).2]))

/-- Notice Mask (R164): a field with a flag above the 23rd is refused; else it is the staged and latched mask at once, and the
reply carries the mask in force. -/
def Obligations.NoticeMaskIsInForceAtOnce : Prop :=
  ∀ (q : Byte) (p : List Byte) (s : State), RequestsTaken s → p.length = 4 →
    (0x7FFFFF < fieldLe p 0 4 →
      exec (.noticeMask q p) s = .next (s.hunted.replied 0x0E q .refused (some .badField) (zeros 4))) ∧
    (fieldLe p 0 4 ≤ 0x7FFFFF →
      exec (.noticeMask q p) s = .next
        (State.replied
          { s.hunted with
            staged := { s.staged with mask := BitVec.ofNat 23 (fieldLe p 0 4) },
            latched := { s.latched with mask := BitVec.ofNat 23 (fieldLe p 0 4) } }
          0x0E q .ok none (le 4 (fieldLe p 0 4))))

end Slice0
end

