-- ==== Sys2Proof/Laws/State.lean ====
section
/-! SUPPORT. What each update of Machine/Ops.lean does to each field of the state, so that no proof unfolds one. -/

namespace Sys2Proof.Machine

/-! ## modTracker -/

@[simp] theorem modTracker_pending (f : Tracker → Tracker) (s : State) : (modTracker f s).pending = s.pending := rfl
@[simp] theorem modTracker_now (f : Tracker → Tracker) (s : State) : (modTracker f s).now = s.now := rfl
@[simp] theorem modTracker_loading (f : Tracker → Tracker) (s : State) : (modTracker f s).loading = s.loading := rfl
@[simp] theorem modTracker_pins (f : Tracker → Tracker) (s : State) : (modTracker f s).pins = s.pins := rfl
@[simp] theorem modTracker_image (f : Tracker → Tracker) (s : State) : (modTracker f s).image = s.image := rfl
@[simp] theorem modTracker_link (f : Tracker → Tracker) (s : State) : (modTracker f s).link = s.link := rfl
@[simp] theorem modTracker_runs (f : Tracker → Tracker) (s : State) : (modTracker f s).runs = s.runs := rfl
@[simp] theorem modTracker_sets (f : Tracker → Tracker) (s : State) : (modTracker f s).sets = s.sets := rfl
@[simp] theorem modTracker_nextSeq (f : Tracker → Tracker) (s : State) : (modTracker f s).nextSeq = s.nextSeq := rfl
@[simp] theorem modTracker_queue (f : Tracker → Tracker) (s : State) : (modTracker f s).queue = s.queue := rfl
@[simp] theorem modTracker_window (f : Tracker → Tracker) (s : State) : (modTracker f s).window = s.window := rfl
@[simp] theorem modTracker_guard (f : Tracker → Tracker) (s : State) : (modTracker f s).guard = s.guard := rfl
@[simp] theorem modTracker_tracker (f : Tracker → Tracker) (s : State) : (modTracker f s).tracker = f s.tracker := rfl
@[simp] theorem modTracker_router (f : Tracker → Tracker) (s : State) : (modTracker f s).router = s.router := rfl
@[simp] theorem modTracker_compA (f : Tracker → Tracker) (s : State) : (modTracker f s).compA = s.compA := rfl
@[simp] theorem modTracker_compB (f : Tracker → Tracker) (s : State) : (modTracker f s).compB = s.compB := rfl
@[simp] theorem modTracker_shuttle (f : Tracker → Tracker) (s : State) : (modTracker f s).shuttle = s.shuttle := rfl
@[simp] theorem modTracker_shelf (f : Tracker → Tracker) (s : State) : (modTracker f s).shelf = s.shelf := rfl
@[simp] theorem modTracker_bins (f : Tracker → Tracker) (s : State) : (modTracker f s).bins = s.bins := rfl
@[simp] theorem modTracker_recovery (f : Tracker → Tracker) (s : State) : (modTracker f s).recovery = s.recovery := rfl
@[simp] theorem modTracker_staged (f : Tracker → Tracker) (s : State) : (modTracker f s).staged = s.staged := rfl
@[simp] theorem modTracker_latched (f : Tracker → Tracker) (s : State) : (modTracker f s).latched = s.latched := rfl
@[simp] theorem modTracker_profileMarks (f : Tracker → Tracker) (s : State) : (modTracker f s).profileMarks = s.profileMarks := rfl

/-! ## modRouter -/

@[simp] theorem modRouter_pending (f : Router → Router) (s : State) : (modRouter f s).pending = s.pending := rfl
@[simp] theorem modRouter_now (f : Router → Router) (s : State) : (modRouter f s).now = s.now := rfl
@[simp] theorem modRouter_loading (f : Router → Router) (s : State) : (modRouter f s).loading = s.loading := rfl
@[simp] theorem modRouter_pins (f : Router → Router) (s : State) : (modRouter f s).pins = s.pins := rfl
@[simp] theorem modRouter_image (f : Router → Router) (s : State) : (modRouter f s).image = s.image := rfl
@[simp] theorem modRouter_link (f : Router → Router) (s : State) : (modRouter f s).link = s.link := rfl
@[simp] theorem modRouter_runs (f : Router → Router) (s : State) : (modRouter f s).runs = s.runs := rfl
@[simp] theorem modRouter_sets (f : Router → Router) (s : State) : (modRouter f s).sets = s.sets := rfl
@[simp] theorem modRouter_nextSeq (f : Router → Router) (s : State) : (modRouter f s).nextSeq = s.nextSeq := rfl
@[simp] theorem modRouter_queue (f : Router → Router) (s : State) : (modRouter f s).queue = s.queue := rfl
@[simp] theorem modRouter_window (f : Router → Router) (s : State) : (modRouter f s).window = s.window := rfl
@[simp] theorem modRouter_guard (f : Router → Router) (s : State) : (modRouter f s).guard = s.guard := rfl
@[simp] theorem modRouter_tracker (f : Router → Router) (s : State) : (modRouter f s).tracker = s.tracker := rfl
@[simp] theorem modRouter_router (f : Router → Router) (s : State) : (modRouter f s).router = f s.router := rfl
@[simp] theorem modRouter_compA (f : Router → Router) (s : State) : (modRouter f s).compA = s.compA := rfl
@[simp] theorem modRouter_compB (f : Router → Router) (s : State) : (modRouter f s).compB = s.compB := rfl
@[simp] theorem modRouter_shuttle (f : Router → Router) (s : State) : (modRouter f s).shuttle = s.shuttle := rfl
@[simp] theorem modRouter_shelf (f : Router → Router) (s : State) : (modRouter f s).shelf = s.shelf := rfl
@[simp] theorem modRouter_bins (f : Router → Router) (s : State) : (modRouter f s).bins = s.bins := rfl
@[simp] theorem modRouter_recovery (f : Router → Router) (s : State) : (modRouter f s).recovery = s.recovery := rfl
@[simp] theorem modRouter_staged (f : Router → Router) (s : State) : (modRouter f s).staged = s.staged := rfl
@[simp] theorem modRouter_latched (f : Router → Router) (s : State) : (modRouter f s).latched = s.latched := rfl
@[simp] theorem modRouter_profileMarks (f : Router → Router) (s : State) : (modRouter f s).profileMarks = s.profileMarks := rfl

/-! ## modShuttle -/

@[simp] theorem modShuttle_pending (f : Shuttle → Shuttle) (s : State) : (modShuttle f s).pending = s.pending := rfl
@[simp] theorem modShuttle_now (f : Shuttle → Shuttle) (s : State) : (modShuttle f s).now = s.now := rfl
@[simp] theorem modShuttle_loading (f : Shuttle → Shuttle) (s : State) : (modShuttle f s).loading = s.loading := rfl
@[simp] theorem modShuttle_pins (f : Shuttle → Shuttle) (s : State) : (modShuttle f s).pins = s.pins := rfl
@[simp] theorem modShuttle_image (f : Shuttle → Shuttle) (s : State) : (modShuttle f s).image = s.image := rfl
@[simp] theorem modShuttle_link (f : Shuttle → Shuttle) (s : State) : (modShuttle f s).link = s.link := rfl
@[simp] theorem modShuttle_runs (f : Shuttle → Shuttle) (s : State) : (modShuttle f s).runs = s.runs := rfl
@[simp] theorem modShuttle_sets (f : Shuttle → Shuttle) (s : State) : (modShuttle f s).sets = s.sets := rfl
@[simp] theorem modShuttle_nextSeq (f : Shuttle → Shuttle) (s : State) : (modShuttle f s).nextSeq = s.nextSeq := rfl
@[simp] theorem modShuttle_queue (f : Shuttle → Shuttle) (s : State) : (modShuttle f s).queue = s.queue := rfl
@[simp] theorem modShuttle_window (f : Shuttle → Shuttle) (s : State) : (modShuttle f s).window = s.window := rfl
@[simp] theorem modShuttle_guard (f : Shuttle → Shuttle) (s : State) : (modShuttle f s).guard = s.guard := rfl
@[simp] theorem modShuttle_tracker (f : Shuttle → Shuttle) (s : State) : (modShuttle f s).tracker = s.tracker := rfl
@[simp] theorem modShuttle_router (f : Shuttle → Shuttle) (s : State) : (modShuttle f s).router = s.router := rfl
@[simp] theorem modShuttle_compA (f : Shuttle → Shuttle) (s : State) : (modShuttle f s).compA = s.compA := rfl
@[simp] theorem modShuttle_compB (f : Shuttle → Shuttle) (s : State) : (modShuttle f s).compB = s.compB := rfl
@[simp] theorem modShuttle_shuttle (f : Shuttle → Shuttle) (s : State) : (modShuttle f s).shuttle = f s.shuttle := rfl
@[simp] theorem modShuttle_shelf (f : Shuttle → Shuttle) (s : State) : (modShuttle f s).shelf = s.shelf := rfl
@[simp] theorem modShuttle_bins (f : Shuttle → Shuttle) (s : State) : (modShuttle f s).bins = s.bins := rfl
@[simp] theorem modShuttle_recovery (f : Shuttle → Shuttle) (s : State) : (modShuttle f s).recovery = s.recovery := rfl
@[simp] theorem modShuttle_staged (f : Shuttle → Shuttle) (s : State) : (modShuttle f s).staged = s.staged := rfl
@[simp] theorem modShuttle_latched (f : Shuttle → Shuttle) (s : State) : (modShuttle f s).latched = s.latched := rfl
@[simp] theorem modShuttle_profileMarks (f : Shuttle → Shuttle) (s : State) : (modShuttle f s).profileMarks = s.profileMarks := rfl

/-! ## modLink -/

@[simp] theorem modLink_pending (f : Link → Link) (s : State) : (modLink f s).pending = s.pending := rfl
@[simp] theorem modLink_now (f : Link → Link) (s : State) : (modLink f s).now = s.now := rfl
@[simp] theorem modLink_loading (f : Link → Link) (s : State) : (modLink f s).loading = s.loading := rfl
@[simp] theorem modLink_pins (f : Link → Link) (s : State) : (modLink f s).pins = s.pins := rfl
@[simp] theorem modLink_image (f : Link → Link) (s : State) : (modLink f s).image = s.image := rfl
@[simp] theorem modLink_link (f : Link → Link) (s : State) : (modLink f s).link = f s.link := rfl
@[simp] theorem modLink_runs (f : Link → Link) (s : State) : (modLink f s).runs = s.runs := rfl
@[simp] theorem modLink_sets (f : Link → Link) (s : State) : (modLink f s).sets = s.sets := rfl
@[simp] theorem modLink_nextSeq (f : Link → Link) (s : State) : (modLink f s).nextSeq = s.nextSeq := rfl
@[simp] theorem modLink_queue (f : Link → Link) (s : State) : (modLink f s).queue = s.queue := rfl
@[simp] theorem modLink_window (f : Link → Link) (s : State) : (modLink f s).window = s.window := rfl
@[simp] theorem modLink_guard (f : Link → Link) (s : State) : (modLink f s).guard = s.guard := rfl
@[simp] theorem modLink_tracker (f : Link → Link) (s : State) : (modLink f s).tracker = s.tracker := rfl
@[simp] theorem modLink_router (f : Link → Link) (s : State) : (modLink f s).router = s.router := rfl
@[simp] theorem modLink_compA (f : Link → Link) (s : State) : (modLink f s).compA = s.compA := rfl
@[simp] theorem modLink_compB (f : Link → Link) (s : State) : (modLink f s).compB = s.compB := rfl
@[simp] theorem modLink_shuttle (f : Link → Link) (s : State) : (modLink f s).shuttle = s.shuttle := rfl
@[simp] theorem modLink_shelf (f : Link → Link) (s : State) : (modLink f s).shelf = s.shelf := rfl
@[simp] theorem modLink_bins (f : Link → Link) (s : State) : (modLink f s).bins = s.bins := rfl
@[simp] theorem modLink_recovery (f : Link → Link) (s : State) : (modLink f s).recovery = s.recovery := rfl
@[simp] theorem modLink_staged (f : Link → Link) (s : State) : (modLink f s).staged = s.staged := rfl
@[simp] theorem modLink_latched (f : Link → Link) (s : State) : (modLink f s).latched = s.latched := rfl
@[simp] theorem modLink_profileMarks (f : Link → Link) (s : State) : (modLink f s).profileMarks = s.profileMarks := rfl

/-! ## modPins -/

@[simp] theorem modPins_pending (f : Pins → Pins) (s : State) : (modPins f s).pending = s.pending := rfl
@[simp] theorem modPins_now (f : Pins → Pins) (s : State) : (modPins f s).now = s.now := rfl
@[simp] theorem modPins_loading (f : Pins → Pins) (s : State) : (modPins f s).loading = s.loading := rfl
@[simp] theorem modPins_pins (f : Pins → Pins) (s : State) : (modPins f s).pins = f s.pins := rfl
@[simp] theorem modPins_image (f : Pins → Pins) (s : State) : (modPins f s).image = s.image := rfl
@[simp] theorem modPins_link (f : Pins → Pins) (s : State) : (modPins f s).link = s.link := rfl
@[simp] theorem modPins_runs (f : Pins → Pins) (s : State) : (modPins f s).runs = s.runs := rfl
@[simp] theorem modPins_sets (f : Pins → Pins) (s : State) : (modPins f s).sets = s.sets := rfl
@[simp] theorem modPins_nextSeq (f : Pins → Pins) (s : State) : (modPins f s).nextSeq = s.nextSeq := rfl
@[simp] theorem modPins_queue (f : Pins → Pins) (s : State) : (modPins f s).queue = s.queue := rfl
@[simp] theorem modPins_window (f : Pins → Pins) (s : State) : (modPins f s).window = s.window := rfl
@[simp] theorem modPins_guard (f : Pins → Pins) (s : State) : (modPins f s).guard = s.guard := rfl
@[simp] theorem modPins_tracker (f : Pins → Pins) (s : State) : (modPins f s).tracker = s.tracker := rfl
@[simp] theorem modPins_router (f : Pins → Pins) (s : State) : (modPins f s).router = s.router := rfl
@[simp] theorem modPins_compA (f : Pins → Pins) (s : State) : (modPins f s).compA = s.compA := rfl
@[simp] theorem modPins_compB (f : Pins → Pins) (s : State) : (modPins f s).compB = s.compB := rfl
@[simp] theorem modPins_shuttle (f : Pins → Pins) (s : State) : (modPins f s).shuttle = s.shuttle := rfl
@[simp] theorem modPins_shelf (f : Pins → Pins) (s : State) : (modPins f s).shelf = s.shelf := rfl
@[simp] theorem modPins_bins (f : Pins → Pins) (s : State) : (modPins f s).bins = s.bins := rfl
@[simp] theorem modPins_recovery (f : Pins → Pins) (s : State) : (modPins f s).recovery = s.recovery := rfl
@[simp] theorem modPins_staged (f : Pins → Pins) (s : State) : (modPins f s).staged = s.staged := rfl
@[simp] theorem modPins_latched (f : Pins → Pins) (s : State) : (modPins f s).latched = s.latched := rfl
@[simp] theorem modPins_profileMarks (f : Pins → Pins) (s : State) : (modPins f s).profileMarks = s.profileMarks := rfl

/-! ## modRun -/

@[simp] theorem modRun_pending (r : Fin 16) (f : Run → Run) (s : State) : (modRun r f s).pending = s.pending := rfl
@[simp] theorem modRun_now (r : Fin 16) (f : Run → Run) (s : State) : (modRun r f s).now = s.now := rfl
@[simp] theorem modRun_loading (r : Fin 16) (f : Run → Run) (s : State) : (modRun r f s).loading = s.loading := rfl
@[simp] theorem modRun_pins (r : Fin 16) (f : Run → Run) (s : State) : (modRun r f s).pins = s.pins := rfl
@[simp] theorem modRun_image (r : Fin 16) (f : Run → Run) (s : State) : (modRun r f s).image = s.image := rfl
@[simp] theorem modRun_link (r : Fin 16) (f : Run → Run) (s : State) : (modRun r f s).link = s.link := rfl
@[simp] theorem modRun_runs (r : Fin 16) (f : Run → Run) (s : State) : (modRun r f s).runs = s.runs.modify r.val (fun o => o.map f) := rfl
@[simp] theorem modRun_sets (r : Fin 16) (f : Run → Run) (s : State) : (modRun r f s).sets = s.sets := rfl
@[simp] theorem modRun_nextSeq (r : Fin 16) (f : Run → Run) (s : State) : (modRun r f s).nextSeq = s.nextSeq := rfl
@[simp] theorem modRun_queue (r : Fin 16) (f : Run → Run) (s : State) : (modRun r f s).queue = s.queue := rfl
@[simp] theorem modRun_window (r : Fin 16) (f : Run → Run) (s : State) : (modRun r f s).window = s.window := rfl
@[simp] theorem modRun_guard (r : Fin 16) (f : Run → Run) (s : State) : (modRun r f s).guard = s.guard := rfl
@[simp] theorem modRun_tracker (r : Fin 16) (f : Run → Run) (s : State) : (modRun r f s).tracker = s.tracker := rfl
@[simp] theorem modRun_router (r : Fin 16) (f : Run → Run) (s : State) : (modRun r f s).router = s.router := rfl
@[simp] theorem modRun_compA (r : Fin 16) (f : Run → Run) (s : State) : (modRun r f s).compA = s.compA := rfl
@[simp] theorem modRun_compB (r : Fin 16) (f : Run → Run) (s : State) : (modRun r f s).compB = s.compB := rfl
@[simp] theorem modRun_shuttle (r : Fin 16) (f : Run → Run) (s : State) : (modRun r f s).shuttle = s.shuttle := rfl
@[simp] theorem modRun_shelf (r : Fin 16) (f : Run → Run) (s : State) : (modRun r f s).shelf = s.shelf := rfl
@[simp] theorem modRun_bins (r : Fin 16) (f : Run → Run) (s : State) : (modRun r f s).bins = s.bins := rfl
@[simp] theorem modRun_recovery (r : Fin 16) (f : Run → Run) (s : State) : (modRun r f s).recovery = s.recovery := rfl
@[simp] theorem modRun_staged (r : Fin 16) (f : Run → Run) (s : State) : (modRun r f s).staged = s.staged := rfl
@[simp] theorem modRun_latched (r : Fin 16) (f : Run → Run) (s : State) : (modRun r f s).latched = s.latched := rfl
@[simp] theorem modRun_profileMarks (r : Fin 16) (f : Run → Run) (s : State) : (modRun r f s).profileMarks = s.profileMarks := rfl

/-! ## setRun -/

@[simp] theorem setRun_pending (r : Fin 16) (o : Option Run) (s : State) : (setRun r o s).pending = s.pending := rfl
@[simp] theorem setRun_now (r : Fin 16) (o : Option Run) (s : State) : (setRun r o s).now = s.now := rfl
@[simp] theorem setRun_loading (r : Fin 16) (o : Option Run) (s : State) : (setRun r o s).loading = s.loading := rfl
@[simp] theorem setRun_pins (r : Fin 16) (o : Option Run) (s : State) : (setRun r o s).pins = s.pins := rfl
@[simp] theorem setRun_image (r : Fin 16) (o : Option Run) (s : State) : (setRun r o s).image = s.image := rfl
@[simp] theorem setRun_link (r : Fin 16) (o : Option Run) (s : State) : (setRun r o s).link = s.link := rfl
@[simp] theorem setRun_runs (r : Fin 16) (o : Option Run) (s : State) : (setRun r o s).runs = s.runs.set r.val o := rfl
@[simp] theorem setRun_sets (r : Fin 16) (o : Option Run) (s : State) : (setRun r o s).sets = s.sets := rfl
@[simp] theorem setRun_nextSeq (r : Fin 16) (o : Option Run) (s : State) : (setRun r o s).nextSeq = s.nextSeq := rfl
@[simp] theorem setRun_queue (r : Fin 16) (o : Option Run) (s : State) : (setRun r o s).queue = s.queue := rfl
@[simp] theorem setRun_window (r : Fin 16) (o : Option Run) (s : State) : (setRun r o s).window = s.window := rfl
@[simp] theorem setRun_guard (r : Fin 16) (o : Option Run) (s : State) : (setRun r o s).guard = s.guard := rfl
@[simp] theorem setRun_tracker (r : Fin 16) (o : Option Run) (s : State) : (setRun r o s).tracker = s.tracker := rfl
@[simp] theorem setRun_router (r : Fin 16) (o : Option Run) (s : State) : (setRun r o s).router = s.router := rfl
@[simp] theorem setRun_compA (r : Fin 16) (o : Option Run) (s : State) : (setRun r o s).compA = s.compA := rfl
@[simp] theorem setRun_compB (r : Fin 16) (o : Option Run) (s : State) : (setRun r o s).compB = s.compB := rfl
@[simp] theorem setRun_shuttle (r : Fin 16) (o : Option Run) (s : State) : (setRun r o s).shuttle = s.shuttle := rfl
@[simp] theorem setRun_shelf (r : Fin 16) (o : Option Run) (s : State) : (setRun r o s).shelf = s.shelf := rfl
@[simp] theorem setRun_bins (r : Fin 16) (o : Option Run) (s : State) : (setRun r o s).bins = s.bins := rfl
@[simp] theorem setRun_recovery (r : Fin 16) (o : Option Run) (s : State) : (setRun r o s).recovery = s.recovery := rfl
@[simp] theorem setRun_staged (r : Fin 16) (o : Option Run) (s : State) : (setRun r o s).staged = s.staged := rfl
@[simp] theorem setRun_latched (r : Fin 16) (o : Option Run) (s : State) : (setRun r o s).latched = s.latched := rfl
@[simp] theorem setRun_profileMarks (r : Fin 16) (o : Option Run) (s : State) : (setRun r o s).profileMarks = s.profileMarks := rfl

/-! ## modSet -/

@[simp] theorem modSet_pending (k : SetKey) (f : SetRec → SetRec) (s : State) : (modSet k f s).pending = s.pending := rfl
@[simp] theorem modSet_now (k : SetKey) (f : SetRec → SetRec) (s : State) : (modSet k f s).now = s.now := rfl
@[simp] theorem modSet_loading (k : SetKey) (f : SetRec → SetRec) (s : State) : (modSet k f s).loading = s.loading := rfl
@[simp] theorem modSet_pins (k : SetKey) (f : SetRec → SetRec) (s : State) : (modSet k f s).pins = s.pins := rfl
@[simp] theorem modSet_image (k : SetKey) (f : SetRec → SetRec) (s : State) : (modSet k f s).image = s.image := rfl
@[simp] theorem modSet_link (k : SetKey) (f : SetRec → SetRec) (s : State) : (modSet k f s).link = s.link := rfl
@[simp] theorem modSet_runs (k : SetKey) (f : SetRec → SetRec) (s : State) : (modSet k f s).runs = s.runs := rfl
@[simp] theorem modSet_sets (k : SetKey) (f : SetRec → SetRec) (s : State) : (modSet k f s).sets = s.sets.map (fun o => o.map (fun r => if r.key = k then f r else r)) := rfl
@[simp] theorem modSet_nextSeq (k : SetKey) (f : SetRec → SetRec) (s : State) : (modSet k f s).nextSeq = s.nextSeq := rfl
@[simp] theorem modSet_queue (k : SetKey) (f : SetRec → SetRec) (s : State) : (modSet k f s).queue = s.queue := rfl
@[simp] theorem modSet_window (k : SetKey) (f : SetRec → SetRec) (s : State) : (modSet k f s).window = s.window := rfl
@[simp] theorem modSet_guard (k : SetKey) (f : SetRec → SetRec) (s : State) : (modSet k f s).guard = s.guard := rfl
@[simp] theorem modSet_tracker (k : SetKey) (f : SetRec → SetRec) (s : State) : (modSet k f s).tracker = s.tracker := rfl
@[simp] theorem modSet_router (k : SetKey) (f : SetRec → SetRec) (s : State) : (modSet k f s).router = s.router := rfl
@[simp] theorem modSet_compA (k : SetKey) (f : SetRec → SetRec) (s : State) : (modSet k f s).compA = s.compA := rfl
@[simp] theorem modSet_compB (k : SetKey) (f : SetRec → SetRec) (s : State) : (modSet k f s).compB = s.compB := rfl
@[simp] theorem modSet_shuttle (k : SetKey) (f : SetRec → SetRec) (s : State) : (modSet k f s).shuttle = s.shuttle := rfl
@[simp] theorem modSet_shelf (k : SetKey) (f : SetRec → SetRec) (s : State) : (modSet k f s).shelf = s.shelf := rfl
@[simp] theorem modSet_bins (k : SetKey) (f : SetRec → SetRec) (s : State) : (modSet k f s).bins = s.bins := rfl
@[simp] theorem modSet_recovery (k : SetKey) (f : SetRec → SetRec) (s : State) : (modSet k f s).recovery = s.recovery := rfl
@[simp] theorem modSet_staged (k : SetKey) (f : SetRec → SetRec) (s : State) : (modSet k f s).staged = s.staged := rfl
@[simp] theorem modSet_latched (k : SetKey) (f : SetRec → SetRec) (s : State) : (modSet k f s).latched = s.latched := rfl
@[simp] theorem modSet_profileMarks (k : SetKey) (f : SetRec → SetRec) (s : State) : (modSet k f s).profileMarks = s.profileMarks := rfl

/-! ## clearSet -/

@[simp] theorem clearSet_pending (k : SetKey) (s : State) : (clearSet k s).pending = s.pending := rfl
@[simp] theorem clearSet_now (k : SetKey) (s : State) : (clearSet k s).now = s.now := rfl
@[simp] theorem clearSet_loading (k : SetKey) (s : State) : (clearSet k s).loading = s.loading := rfl
@[simp] theorem clearSet_pins (k : SetKey) (s : State) : (clearSet k s).pins = s.pins := rfl
@[simp] theorem clearSet_image (k : SetKey) (s : State) : (clearSet k s).image = s.image := rfl
@[simp] theorem clearSet_link (k : SetKey) (s : State) : (clearSet k s).link = s.link := rfl
@[simp] theorem clearSet_runs (k : SetKey) (s : State) : (clearSet k s).runs = s.runs := rfl
@[simp] theorem clearSet_sets (k : SetKey) (s : State) : (clearSet k s).sets = s.sets.map (fun o => o.bind (fun r => if r.key = k then none else some r)) := rfl
@[simp] theorem clearSet_nextSeq (k : SetKey) (s : State) : (clearSet k s).nextSeq = s.nextSeq := rfl
@[simp] theorem clearSet_queue (k : SetKey) (s : State) : (clearSet k s).queue = s.queue := rfl
@[simp] theorem clearSet_window (k : SetKey) (s : State) : (clearSet k s).window = s.window := rfl
@[simp] theorem clearSet_guard (k : SetKey) (s : State) : (clearSet k s).guard = s.guard := rfl
@[simp] theorem clearSet_tracker (k : SetKey) (s : State) : (clearSet k s).tracker = s.tracker := rfl
@[simp] theorem clearSet_router (k : SetKey) (s : State) : (clearSet k s).router = s.router := rfl
@[simp] theorem clearSet_compA (k : SetKey) (s : State) : (clearSet k s).compA = s.compA := rfl
@[simp] theorem clearSet_compB (k : SetKey) (s : State) : (clearSet k s).compB = s.compB := rfl
@[simp] theorem clearSet_shuttle (k : SetKey) (s : State) : (clearSet k s).shuttle = s.shuttle := rfl
@[simp] theorem clearSet_shelf (k : SetKey) (s : State) : (clearSet k s).shelf = s.shelf := rfl
@[simp] theorem clearSet_bins (k : SetKey) (s : State) : (clearSet k s).bins = s.bins := rfl
@[simp] theorem clearSet_recovery (k : SetKey) (s : State) : (clearSet k s).recovery = s.recovery := rfl
@[simp] theorem clearSet_staged (k : SetKey) (s : State) : (clearSet k s).staged = s.staged := rfl
@[simp] theorem clearSet_latched (k : SetKey) (s : State) : (clearSet k s).latched = s.latched := rfl
@[simp] theorem clearSet_profileMarks (k : SetKey) (s : State) : (clearSet k s).profileMarks = s.profileMarks := rfl

/-! ## modBin -/

@[simp] theorem modBin_pending (b : Fin 24) (f : Bin → Bin) (s : State) : (modBin b f s).pending = s.pending := rfl
@[simp] theorem modBin_now (b : Fin 24) (f : Bin → Bin) (s : State) : (modBin b f s).now = s.now := rfl
@[simp] theorem modBin_loading (b : Fin 24) (f : Bin → Bin) (s : State) : (modBin b f s).loading = s.loading := rfl
@[simp] theorem modBin_pins (b : Fin 24) (f : Bin → Bin) (s : State) : (modBin b f s).pins = s.pins := rfl
@[simp] theorem modBin_image (b : Fin 24) (f : Bin → Bin) (s : State) : (modBin b f s).image = s.image := rfl
@[simp] theorem modBin_link (b : Fin 24) (f : Bin → Bin) (s : State) : (modBin b f s).link = s.link := rfl
@[simp] theorem modBin_runs (b : Fin 24) (f : Bin → Bin) (s : State) : (modBin b f s).runs = s.runs := rfl
@[simp] theorem modBin_sets (b : Fin 24) (f : Bin → Bin) (s : State) : (modBin b f s).sets = s.sets := rfl
@[simp] theorem modBin_nextSeq (b : Fin 24) (f : Bin → Bin) (s : State) : (modBin b f s).nextSeq = s.nextSeq := rfl
@[simp] theorem modBin_queue (b : Fin 24) (f : Bin → Bin) (s : State) : (modBin b f s).queue = s.queue := rfl
@[simp] theorem modBin_window (b : Fin 24) (f : Bin → Bin) (s : State) : (modBin b f s).window = s.window := rfl
@[simp] theorem modBin_guard (b : Fin 24) (f : Bin → Bin) (s : State) : (modBin b f s).guard = s.guard := rfl
@[simp] theorem modBin_tracker (b : Fin 24) (f : Bin → Bin) (s : State) : (modBin b f s).tracker = s.tracker := rfl
@[simp] theorem modBin_router (b : Fin 24) (f : Bin → Bin) (s : State) : (modBin b f s).router = s.router := rfl
@[simp] theorem modBin_compA (b : Fin 24) (f : Bin → Bin) (s : State) : (modBin b f s).compA = s.compA := rfl
@[simp] theorem modBin_compB (b : Fin 24) (f : Bin → Bin) (s : State) : (modBin b f s).compB = s.compB := rfl
@[simp] theorem modBin_shuttle (b : Fin 24) (f : Bin → Bin) (s : State) : (modBin b f s).shuttle = s.shuttle := rfl
@[simp] theorem modBin_shelf (b : Fin 24) (f : Bin → Bin) (s : State) : (modBin b f s).shelf = s.shelf := rfl
@[simp] theorem modBin_bins (b : Fin 24) (f : Bin → Bin) (s : State) : (modBin b f s).bins = s.bins.modify b.val f := rfl
@[simp] theorem modBin_recovery (b : Fin 24) (f : Bin → Bin) (s : State) : (modBin b f s).recovery = s.recovery := rfl
@[simp] theorem modBin_staged (b : Fin 24) (f : Bin → Bin) (s : State) : (modBin b f s).staged = s.staged := rfl
@[simp] theorem modBin_latched (b : Fin 24) (f : Bin → Bin) (s : State) : (modBin b f s).latched = s.latched := rfl
@[simp] theorem modBin_profileMarks (b : Fin 24) (f : Bin → Bin) (s : State) : (modBin b f s).profileMarks = s.profileMarks := rfl

/-! ## modComp -/

@[simp] theorem modComp_pending (x : CompilerId) (f : Compiler → Compiler) (s : State) : (modComp x f s).pending = s.pending := by cases x <;> rfl
@[simp] theorem modComp_now (x : CompilerId) (f : Compiler → Compiler) (s : State) : (modComp x f s).now = s.now := by cases x <;> rfl
@[simp] theorem modComp_loading (x : CompilerId) (f : Compiler → Compiler) (s : State) : (modComp x f s).loading = s.loading := by cases x <;> rfl
@[simp] theorem modComp_pins (x : CompilerId) (f : Compiler → Compiler) (s : State) : (modComp x f s).pins = s.pins := by cases x <;> rfl
@[simp] theorem modComp_image (x : CompilerId) (f : Compiler → Compiler) (s : State) : (modComp x f s).image = s.image := by cases x <;> rfl
@[simp] theorem modComp_link (x : CompilerId) (f : Compiler → Compiler) (s : State) : (modComp x f s).link = s.link := by cases x <;> rfl
@[simp] theorem modComp_runs (x : CompilerId) (f : Compiler → Compiler) (s : State) : (modComp x f s).runs = s.runs := by cases x <;> rfl
@[simp] theorem modComp_sets (x : CompilerId) (f : Compiler → Compiler) (s : State) : (modComp x f s).sets = s.sets := by cases x <;> rfl
@[simp] theorem modComp_nextSeq (x : CompilerId) (f : Compiler → Compiler) (s : State) : (modComp x f s).nextSeq = s.nextSeq := by cases x <;> rfl
@[simp] theorem modComp_queue (x : CompilerId) (f : Compiler → Compiler) (s : State) : (modComp x f s).queue = s.queue := by cases x <;> rfl
@[simp] theorem modComp_window (x : CompilerId) (f : Compiler → Compiler) (s : State) : (modComp x f s).window = s.window := by cases x <;> rfl
@[simp] theorem modComp_guard (x : CompilerId) (f : Compiler → Compiler) (s : State) : (modComp x f s).guard = s.guard := by cases x <;> rfl
@[simp] theorem modComp_tracker (x : CompilerId) (f : Compiler → Compiler) (s : State) : (modComp x f s).tracker = s.tracker := by cases x <;> rfl
@[simp] theorem modComp_router (x : CompilerId) (f : Compiler → Compiler) (s : State) : (modComp x f s).router = s.router := by cases x <;> rfl
@[simp] theorem modComp_shuttle (x : CompilerId) (f : Compiler → Compiler) (s : State) : (modComp x f s).shuttle = s.shuttle := by cases x <;> rfl
@[simp] theorem modComp_shelf (x : CompilerId) (f : Compiler → Compiler) (s : State) : (modComp x f s).shelf = s.shelf := by cases x <;> rfl
@[simp] theorem modComp_bins (x : CompilerId) (f : Compiler → Compiler) (s : State) : (modComp x f s).bins = s.bins := by cases x <;> rfl
@[simp] theorem modComp_recovery (x : CompilerId) (f : Compiler → Compiler) (s : State) : (modComp x f s).recovery = s.recovery := by cases x <;> rfl
@[simp] theorem modComp_staged (x : CompilerId) (f : Compiler → Compiler) (s : State) : (modComp x f s).staged = s.staged := by cases x <;> rfl
@[simp] theorem modComp_latched (x : CompilerId) (f : Compiler → Compiler) (s : State) : (modComp x f s).latched = s.latched := by cases x <;> rfl
@[simp] theorem modComp_profileMarks (x : CompilerId) (f : Compiler → Compiler) (s : State) : (modComp x f s).profileMarks = s.profileMarks := by cases x <;> rfl
@[simp] theorem modComp_a_compA (f : Compiler → Compiler) (s : State) : (modComp .a f s).compA = f s.compA := rfl
@[simp] theorem modComp_a_compB (f : Compiler → Compiler) (s : State) : (modComp .a f s).compB = s.compB := rfl
@[simp] theorem modComp_b_compA (f : Compiler → Compiler) (s : State) : (modComp .b f s).compA = s.compA := rfl
@[simp] theorem modComp_b_compB (f : Compiler → Compiler) (s : State) : (modComp .b f s).compB = f s.compB := rfl
@[simp] theorem modComp_comp (x : CompilerId) (f : Compiler → Compiler) (s : State) : (modComp x f s).comp x = f (s.comp x) := by
  cases x <;> rfl
@[simp] theorem modComp_comp_other (x : CompilerId) (f : Compiler → Compiler) (s : State) :
    (modComp x f s).comp (otherCompiler x) = s.comp (otherCompiler x) := by cases x <;> rfl

/-! ## modRec -/

@[simp] theorem modRec_pending (i : Nat) (f : PathRec → PathRec) (s : State) : (modRec i f s).pending = s.pending := rfl
@[simp] theorem modRec_now (i : Nat) (f : PathRec → PathRec) (s : State) : (modRec i f s).now = s.now := rfl
@[simp] theorem modRec_loading (i : Nat) (f : PathRec → PathRec) (s : State) : (modRec i f s).loading = s.loading := rfl
@[simp] theorem modRec_pins (i : Nat) (f : PathRec → PathRec) (s : State) : (modRec i f s).pins = s.pins := rfl
@[simp] theorem modRec_image (i : Nat) (f : PathRec → PathRec) (s : State) : (modRec i f s).image = s.image := rfl
@[simp] theorem modRec_link (i : Nat) (f : PathRec → PathRec) (s : State) : (modRec i f s).link = s.link := rfl
@[simp] theorem modRec_runs (i : Nat) (f : PathRec → PathRec) (s : State) : (modRec i f s).runs = s.runs := rfl
@[simp] theorem modRec_sets (i : Nat) (f : PathRec → PathRec) (s : State) : (modRec i f s).sets = s.sets := rfl
@[simp] theorem modRec_nextSeq (i : Nat) (f : PathRec → PathRec) (s : State) : (modRec i f s).nextSeq = s.nextSeq := rfl
@[simp] theorem modRec_queue (i : Nat) (f : PathRec → PathRec) (s : State) : (modRec i f s).queue = s.queue := rfl
@[simp] theorem modRec_window (i : Nat) (f : PathRec → PathRec) (s : State) : (modRec i f s).window = s.window := rfl
@[simp] theorem modRec_guard (i : Nat) (f : PathRec → PathRec) (s : State) : (modRec i f s).guard = s.guard := rfl
@[simp] theorem modRec_router (i : Nat) (f : PathRec → PathRec) (s : State) : (modRec i f s).router = s.router := rfl
@[simp] theorem modRec_compA (i : Nat) (f : PathRec → PathRec) (s : State) : (modRec i f s).compA = s.compA := rfl
@[simp] theorem modRec_compB (i : Nat) (f : PathRec → PathRec) (s : State) : (modRec i f s).compB = s.compB := rfl
@[simp] theorem modRec_shuttle (i : Nat) (f : PathRec → PathRec) (s : State) : (modRec i f s).shuttle = s.shuttle := rfl
@[simp] theorem modRec_shelf (i : Nat) (f : PathRec → PathRec) (s : State) : (modRec i f s).shelf = s.shelf := rfl
@[simp] theorem modRec_bins (i : Nat) (f : PathRec → PathRec) (s : State) : (modRec i f s).bins = s.bins := rfl
@[simp] theorem modRec_recovery (i : Nat) (f : PathRec → PathRec) (s : State) : (modRec i f s).recovery = s.recovery := rfl
@[simp] theorem modRec_staged (i : Nat) (f : PathRec → PathRec) (s : State) : (modRec i f s).staged = s.staged := rfl
@[simp] theorem modRec_latched (i : Nat) (f : PathRec → PathRec) (s : State) : (modRec i f s).latched = s.latched := rfl
@[simp] theorem modRec_profileMarks (i : Nat) (f : PathRec → PathRec) (s : State) : (modRec i f s).profileMarks = s.profileMarks := rfl
@[simp] theorem modRec_tracker (i : Nat) (f : PathRec → PathRec) (s : State) :
    (modRec i f s).tracker = { s.tracker with path := s.tracker.path.modify i f } := rfl

end Sys2Proof.Machine
end

