-- ==== Sys2Proof/Laws/Base.lean ====
section
/-! SUPPORT. What the operations of the delivery side (05 to 07) leave alone, said once for each of them as one equation: the
queue, the pins, the transport with its causes and timers, the recovery list, the records of the path but for deadlines and
parking, the parameters but for DELIVERY, the clock and the command queue. -/

namespace Sys2Proof.Machine

/-- A path record without its deadlines and its parked flag, which the release test changes (R95). -/
def PathRec.still (r : PathRec) : PathRec := { r with leadDl := none, clearDl := none, parked := false }

/-- A state with everything a delivery-side operation may change blanked out. -/
def State.base (s : State) : State :=
  { s with
    link := Link.initial Pins.quiet, runs := [], sets := [], nextSeq := 0,
    router := { spacing := none, lastTaker := .b, held := false, diverter := .feed, gate := .stop },
    compA := Compiler.initial, compB := Compiler.initial, shuttle := Shuttle.initial,
    shelf := { height := 0, count := 0, fullMark := false, readsEmpty := false }, bins := [],
    latched := { s.latched with delivery := [] },
    tracker := { s.tracker with path := s.tracker.path.map PathRec.still } }

/-! ## What an equation of bases says -/

theorem pending_of_base {s t : State} (h : t.base = s.base) : t.pending = s.pending := by
  have e := congrArg State.pending h; exact e
theorem now_of_base {s t : State} (h : t.base = s.base) : t.now = s.now := by
  have e := congrArg State.now h; exact e
theorem loading_of_base {s t : State} (h : t.base = s.base) : t.loading = s.loading := by
  have e := congrArg State.loading h; exact e
theorem pins_of_base {s t : State} (h : t.base = s.base) : t.pins = s.pins := by
  have e := congrArg State.pins h; exact e
theorem image_of_base {s t : State} (h : t.base = s.base) : t.image = s.image := by
  have e := congrArg State.image h; exact e
theorem queue_of_base {s t : State} (h : t.base = s.base) : t.queue = s.queue := by
  have e := congrArg State.queue h; exact e
theorem window_of_base {s t : State} (h : t.base = s.base) : t.window = s.window := by
  have e := congrArg State.window h; exact e
theorem guard_of_base {s t : State} (h : t.base = s.base) : t.guard = s.guard := by
  have e := congrArg State.guard h; exact e
theorem recovery_of_base {s t : State} (h : t.base = s.base) : t.recovery = s.recovery := by
  have e := congrArg State.recovery h; exact e
theorem staged_of_base {s t : State} (h : t.base = s.base) : t.staged = s.staged := by
  have e := congrArg State.staged h; exact e
theorem marks_of_base {s t : State} (h : t.base = s.base) : t.profileMarks = s.profileMarks := by
  have e := congrArg State.profileMarks h; exact e
theorem transport_of_base {s t : State} (h : t.base = s.base) : t.tracker.transport = s.tracker.transport := by
  have e := congrArg (fun u => u.tracker.transport) h; exact e
theorem causes_of_base {s t : State} (h : t.base = s.base) : t.tracker.causes = s.tracker.causes := by
  have e := congrArg (fun u => u.tracker.causes) h; exact e
theorem readings_of_base {s t : State} (h : t.base = s.base) : t.tracker.readings = s.tracker.readings := by
  have e := congrArg (fun u => u.tracker.readings) h; exact e
theorem spinup_of_base {s t : State} (h : t.base = s.base) : t.tracker.spinup = s.tracker.spinup := by
  have e := congrArg (fun u => u.tracker.spinup) h; exact e
theorem idle_of_base {s t : State} (h : t.base = s.base) : t.tracker.idle = s.tracker.idle := by
  have e := congrArg (fun u => u.tracker.idle) h; exact e
theorem still_of_base {s t : State} (h : t.base = s.base) :
    t.tracker.path.map PathRec.still = s.tracker.path.map PathRec.still := by
  have e := congrArg (fun u => u.tracker.path) h; exact e
theorem pathLength_of_base {s t : State} (h : t.base = s.base) : t.tracker.path.length = s.tracker.path.length := by
  have := congrArg List.length (still_of_base h)
  simpa using this

/-- The route of the record at a place is part of the base. -/
theorem routeAt_of_base {s t : State} (h : t.base = s.base) (i : Nat) :
    (t.tracker.path[i]?).map (·.route) = (s.tracker.path[i]?).map (·.route) := by
  have e := congrArg (fun l => (l[i]?).map (·.route)) (still_of_base h)
  simpa [Function.comp_def, PathRec.still] using e

/-! ## Updates -/

@[simp] theorem base_modComp (x : CompilerId) (f : Compiler → Compiler) (s : State) : (modComp x f s).base = s.base := by
  cases x <;> rfl
@[simp] theorem base_modRun (r : Fin 16) (f : Run → Run) (s : State) : (modRun r f s).base = s.base := rfl
@[simp] theorem base_setRun (r : Fin 16) (o : Option Run) (s : State) : (setRun r o s).base = s.base := rfl
@[simp] theorem base_modSet (k : SetKey) (f : SetRec → SetRec) (s : State) : (modSet k f s).base = s.base := rfl
@[simp] theorem base_clearSet (k : SetKey) (s : State) : (clearSet k s).base = s.base := rfl
@[simp] theorem base_modBin (b : Fin 24) (f : Bin → Bin) (s : State) : (modBin b f s).base = s.base := rfl
@[simp] theorem base_modRouter (f : Router → Router) (s : State) : (modRouter f s).base = s.base := rfl
@[simp] theorem base_modShuttle (f : Shuttle → Shuttle) (s : State) : (modShuttle f s).base = s.base := rfl
@[simp] theorem base_modLink (f : Link → Link) (s : State) : (modLink f s).base = s.base := rfl
@[simp] theorem base_notify (b : NoticeBody) (s : State) : (notify b s).base = s.base := by
  unfold notify; repeat' split
  all_goals rfl

/-! ## Pace, delivery, runs -/

@[simp] theorem base_paceTest (s : State) : (paceTest s).base = s.base := by
  simp only [paceTest]; repeat' split
  all_goals simp
@[simp] theorem base_claim (r : Fin 16) (b : Fin 24) (s : State) : (claim r b s).base = s.base := rfl
@[simp] theorem base_fillActive (p : Packet) (s : State) : (fillActive p s).base = s.base := by
  unfold fillActive; repeat' split
  all_goals simp
@[simp] theorem base_spill (p : Packet) (s : State) : (spill p s).base = s.base := by
  simp only [spill]; repeat' split
  all_goals simp
@[simp] theorem base_selectTarget (p : Packet) (s : State) : (selectTarget p s).1.base = s.base := by
  simp only [selectTarget]; repeat' split
  all_goals simp
@[simp] theorem base_grant (x : CompilerId) (t : Target) (s : State) : (grant x t s).base = s.base := by
  simp [grant]
@[simp] theorem base_markUndeliverable (x : CompilerId) (p : Packet) (s : State) :
    (markUndeliverable x p s).base = s.base := by
  simp only [markUndeliverable]; split <;> split <;> simp
@[simp] theorem base_takeOffers (os : List (CompilerId × Packet)) (s : State) : (takeOffers os s).base = s.base := by
  induction os generalizing s with
  | nil => rfl
  | cons o os ih =>
    obtain ⟨x, p⟩ := o
    have h := base_selectTarget p s
    unfold takeOffers
    split <;> simp_all
@[simp] theorem base_arbitrate (s : State) : (arbitrate s).base = s.base := by unfold arbitrate; split <;> simp
@[simp] theorem base_startRetarget (t : Target) (s : State) : (startRetarget t s).base = s.base := by
  simp [startRetarget]
@[simp] theorem base_retryWaiting (s : State) : (retryWaiting s).base = s.base := by
  unfold retryWaiting; split
  · split
    · rfl
    · rename_i p _
      have h := base_selectTarget p s
      split <;> simp_all
  · rfl
@[simp] theorem base_targetEvent (s : State) : (targetEvent s).base = s.base := by simp [targetEvent]
@[simp] theorem base_removeRunTest (r : Fin 16) (s : State) : (removeRunTest r s).base = s.base := by
  unfold removeRunTest; split <;> simp
@[simp] theorem base_disown (b : Fin 24) (s : State) : (disown b s).base = s.base := by
  unfold disown; split <;> simp
@[simp] theorem base_releaseBin (b : Fin 24) (st : BinState) (s : State) : (releaseBin b st s).base = s.base := by
  simp only [releaseBin]; split <;> split <;> simp
@[simp] theorem base_releaseEach (bs : List (Fin 24)) (s : State) : (releaseEach bs s).base = s.base := by
  induction bs generalizing s with
  | nil => rfl
  | cons b bs ih => unfold releaseEach; rw [ih]; split <;> simp
@[simp] theorem base_finishChecks (r : Fin 16) (s : State) : (finishChecks r s).base = s.base := by
  simp only [finishChecks]; split <;> simp
@[simp] theorem base_completionTest (r : Fin 16) (s : State) : (completionTest r s).base = s.base := by
  unfold completionTest; repeat' split
  all_goals simp
@[simp] theorem base_countFinished (k : SetKey) (f : Run → Run) (s : State) : (countFinished k f s).base = s.base := by
  simp [countFinished]

/-! ## The DELIVERY latch -/

@[simp] theorem base_overfullBin (b : Fin 24) (s : State) : (overfullBin b s).base = s.base := by
  simp only [overfullBin]; repeat' split
  all_goals simp
theorem base_foldBins (bs : List (Fin 24)) (s : State) :
    (bs.foldl (fun s b => overfullBin b s) s).base = s.base := by
  induction bs generalizing s with
  | nil => rfl
  | cons b bs ih => simp [ih]
@[simp] theorem base_copyDelivery (s : State) : (copyDelivery s).base = s.base := by
  unfold copyDelivery; rw [base_foldBins]; rfl
@[simp] theorem base_deliveryLatch (s : State) : (deliveryLatch s).base = s.base := by simp [deliveryLatch]

/-! ## Sets and compilers -/

@[simp] theorem base_supplyTests (x : CompilerId) (n th : Nat) (s : State) : (supplyTests x n th s).base = s.base := by
  simp only [supplyTests]; repeat' split
  all_goals simp
@[simp] theorem base_compileLatch (x : CompilerId) (s : State) : (compileLatch x s).base = s.base := by simp [compileLatch]
@[simp] theorem base_becomeEmpty (x : CompilerId) (s : State) : (becomeEmpty x s).base = s.base := by
  unfold becomeEmpty; split <;> simp
@[simp] theorem base_closeTest (x : CompilerId) (s : State) : (closeTest x s).base = s.base := by
  simp only [closeTest]; split <;> simp
@[simp] theorem base_closeTestOf (k : SetKey) (s : State) : (closeTestOf k s).base = s.base := by
  unfold closeTestOf; repeat' split
  all_goals simp

theorem map_still_modify (f : PathRec → PathRec) (hf : ∀ r, (f r).still = r.still) (i : Nat) (l : List PathRec) :
    (l.modify i f).map PathRec.still = l.map PathRec.still := by
  induction l generalizing i with
  | nil => cases i <;> rfl
  | cons r l ih => cases i <;> simp [hf, ih]

/-- Changing only deadlines and the parked flag of a record leaves the base alone. -/
theorem base_modRec (i : Nat) (f : PathRec → PathRec) (hf : ∀ r, (f r).still = r.still) (s : State) :
    (modRec i f s).base = s.base := by
  have h := map_still_modify f hf i s.tracker.path
  simp only [State.base, modRec_tracker]
  rw [h]; rfl

@[simp] theorem base_releaseTest (s : State) : (releaseTest s).base = s.base := by
  unfold releaseTest; split
  · rfl
  · split
    · rw [base_modRouter]; exact base_modRec _ (releasedRec s) (fun r => rfl) s
    · rfl
@[simp] theorem base_afterSetChange (s : State) : (afterSetChange s).base = s.base := by simp [afterSetChange]
@[simp] theorem base_promoteOrEmpty (x : CompilerId) (s : State) : (promoteOrEmpty x s).base = s.base := by
  simp only [promoteOrEmpty]; split <;> simp
@[simp] theorem base_dropSet (k : SetKey) (s : State) : (dropSet k s).base = s.base := by
  simp only [dropSet]; split <;> simp
@[simp] theorem base_removalTest (k : SetKey) (s : State) : (removalTest k s).base = s.base := by
  unfold removalTest; repeat' split
  all_goals simp
@[simp] theorem base_retireSet (k : SetKey) (s : State) : (retireSet k s).base = s.base := by simp [retireSet]
@[simp] theorem base_drainEnd (q : SetRec) (s : State) : (drainEnd q s).base = s.base := by
  simp only [drainEnd]; split <;> simp
@[simp] theorem base_drainTest (k : SetKey) (s : State) : (drainTest k s).base = s.base := by
  unfold drainTest; repeat' split
  all_goals simp
@[simp] theorem base_divertSet (k : SetKey) (page : Nat) (c : DivertCause) (s : State) :
    (divertSet k page c s).base = s.base := rfl
@[simp] theorem base_giveUp (x : CompilerId) (k : SetKey) (s : State) : (giveUp x k s).base = s.base := by simp [giveUp]
@[simp] theorem base_cancelReservation (d : Bool) (x : CompilerId) (k : SetKey) (s : State) :
    (cancelReservation d x k s).base = s.base := by
  simp only [cancelReservation]; cases d <;> simp
@[simp] theorem base_cancelTest (d : Bool) (x : CompilerId) (s : State) : (cancelTest d x s).base = s.base := by
  simp only [cancelTest]; repeat' split
  all_goals simp
@[simp] theorem base_stackLost (x : CompilerId) (s : State) : (stackLost x s).base = s.base := by
  simp only [stackLost]; split <;> split <;> simp

/-! ## The trip -/

@[simp] theorem base_startOutbound (s : State) : (startOutbound s).base = s.base := by
  unfold startOutbound; split <;> simp
@[simp] theorem base_packetAboard (p : Packet) (b : Bool) (s : State) : (packetAboard p b s).base = s.base := by
  simp only [packetAboard]; split <;> simp
@[simp] theorem base_transferEnd (x : CompilerId) (s : State) : (transferEnd x s).base = s.base := by
  simp only [transferEnd]; split <;> split <;> simp
@[simp] theorem base_dropInto (t : Target) (p : Packet) (s : State) : (dropInto t p s).1.base = s.base := by
  cases t <;> rfl
@[simp] theorem base_dropStart (t : Target) (p : Packet) (s : State) : (dropStart t p s).base = s.base := by
  simp [dropStart]
@[simp] theorem base_waitAtLevel (p : Packet) (s : State) : (waitAtLevel p s).base = s.base := by
  simp only [waitAtLevel]; split <;> simp
@[simp] theorem base_checkAtLevel (p : Packet) (s : State) : (checkAtLevel p s).base = s.base := by
  have h := base_selectTarget p s
  unfold checkAtLevel; split
  · simp
  · split <;> simp_all
@[simp] theorem base_arrive (m : Move) (s : State) : (arrive m s).base = s.base := by
  simp only [arrive]; split <;> simp
@[simp] theorem base_dock (s : State) : (dock s).base = s.base := by simp [dock]
@[simp] theorem base_moveEnd (m : Move) (s : State) : (moveEnd m s).base = s.base := by
  unfold moveEnd; split <;> simp
@[simp] theorem base_startReturn (s : State) : (startReturn s).base = s.base := by simp [startReturn]
@[simp] theorem base_restartMove (m : Move) (s : State) : (restartMove m s).base = s.base := by simp [restartMove]
@[simp] theorem base_resumeMove (m : Move) (s : State) : (resumeMove m s).base = s.base := by
  unfold resumeMove; repeat' split
  all_goals simp
@[simp] theorem base_faultExit (s : State) : (faultExit s).base = s.base := by
  unfold faultExit; repeat' split
  all_goals simp
@[simp] theorem base_loseOnBoard (s : State) : (loseOnBoard s).base = s.base := by
  unfold loseOnBoard; split <;> simp
@[simp] theorem base_moveFailed (m : Move) (s : State) : (moveFailed m s).base = s.base := by simp [moveFailed]
@[simp] theorem base_resumeMoving (s : State) : (resumeMoving s).base = s.base := by
  unfold resumeMoving; repeat' split
  all_goals simp
@[simp] theorem base_resumeShuttle (s : State) : (resumeShuttle s).base = s.base := by
  unfold resumeShuttle; repeat' split
  all_goals simp

/-! ## The close -/

@[simp] theorem base_land (x : CompilerId) (tag : Nat) (sh : Sheet) (s : State) : (land x tag sh s).base = s.base := by
  simp only [land]; split <;> simp
@[simp] theorem base_closeStart (x : CompilerId) (q : SetRec) (r : Run) (s : State) :
    (closeStart x q r s).base = s.base := by
  simp [closeStart]; rfl
@[simp] theorem base_closeEnd (x : CompilerId) (s : State) : (closeEnd x s).base = s.base := by simp [closeEnd]
@[simp] theorem base_strokeStart (x : CompilerId) (p : CloseProgress) (s : State) : (strokeStart x p s).base = s.base := by
  simp [strokeStart]
@[simp] theorem base_strokeTest (x : CompilerId) (s : State) : (strokeTest x s).base = s.base := by
  simp only [strokeTest]; repeat' split
  all_goals simp
@[simp] theorem base_staplerFault (x : CompilerId) (c : StaplerCause) (s : State) : (staplerFault x c s).base = s.base := by
  simp only [staplerFault]; split <;> simp
@[simp] theorem base_strokeFormed (x : CompilerId) (s : State) : (strokeFormed x s).base = s.base := by
  simp [strokeFormed]
@[simp] theorem base_strokeNotFormed (x : CompilerId) (p : CloseProgress) (s : State) :
    (strokeNotFormed x p s).base = s.base := by
  unfold strokeNotFormed; split <;> simp
@[simp] theorem base_clearWaitClosing (x : CompilerId) (s : State) : (clearWaitClosing x s).base = s.base := by
  simp only [clearWaitClosing]; repeat' split
  all_goals simp
@[simp] theorem base_resumeTransfer (x : CompilerId) (s : State) : (resumeTransfer x s).base = s.base := by
  simp only [resumeTransfer]; repeat' split
  all_goals simp
@[simp] theorem base_resumeCompiler (x : CompilerId) (s : State) : (resumeCompiler x s).base = s.base := by
  unfold resumeCompiler; split <;> simp
@[simp] theorem base_endRunningTransfer (x : CompilerId) (s : State) : (endRunningTransfer x s).base = s.base := by
  unfold endRunningTransfer; split <;> simp

/-! ## Bins -/

@[simp] theorem base_settleBin (b : Fin 24) (st : BinState) (s : State) : (settleBin b st s).base = s.base := by
  simp only [settleBin]; split <;> simp
@[simp] theorem base_settleReleased (b : Fin 24) (st : BinState) (s : State) : (settleReleased b st s).base = s.base := by
  unfold settleReleased; split <;> simp
@[simp] theorem base_settleCollected (b : Fin 24) (pre : BinState) (s : State) :
    (settleCollected b pre s).base = s.base := by
  unfold settleCollected; repeat' split
  all_goals simp
@[simp] theorem base_collect (b : Fin 24) (pre : BinState) (s : State) : (collect b pre s).base = s.base := by
  simp [collect]
@[simp] theorem base_restoreBin (b : Fin 24) (pre : BinState) (s : State) : (restoreBin b pre s).base = s.base := by
  simp [restoreBin]
@[simp] theorem base_closeDoor (b : Fin 24) (s : State) : (closeDoor b s).base = s.base := by
  simp only [closeDoor]; repeat' split
  all_goals simp
@[simp] theorem base_releaseOpen (b : Fin 24) (s : State) : (releaseOpen b s).base = s.base := by
  unfold releaseOpen; split <;> simp
@[simp] theorem base_bringIn (b : Fin 24) (s : State) : (bringIn b s).base = s.base := by
  simp only [bringIn]; repeat' split
  all_goals simp
@[simp] theorem base_serveBin (a : ServiceAction) (b : Fin 24) (s : State) : (serveBin a b s).1.base = s.base := by
  cases a <;> simp [serveBin]
@[simp] theorem base_serveBins (a : ServiceAction) (bs : List (Fin 24)) (s : State) :
    (serveBins a bs s).1.base = s.base := by
  induction bs generalizing s with
  | nil => rfl
  | cons b bs ih => simp [serveBins, ih]

end Sys2Proof.Machine
end

