-- ==== Sys2Proof/Laws/Stores.lean ====
section
/-! SUPPORT. What the delivery-side operations (05 to 07) keep: the places of the reply queue, the notice FIFO, the run, set and
bin tables, and the law of the bin table (R134), said once for each operation. -/

namespace Sys2Proof.Machine

/-- The FIFO holds up to 16 notices and the reply queue up to `n` replies. -/
def LinkWithin (n : Nat) (l : Link) : Prop := l.replies.length ≤ n ∧ l.notices.length ≤ Config.noticePlaces

/-- The notice FIFO within its 16 places and the reply queue within `n` of its 4 (an owner runs with 3, so that its reply finds
room), the table sizes and the law of the bin table together. -/
structure Stores (n : Nat) (s : State) : Prop where
  link : LinkWithin n s.link
  runs : s.runs.length = 16
  sets : s.sets.length = 32
  bins : BinLaw s

/-! ## The link -/

variable {n : Nat}

theorem linkWithin_sendNext {l : Link} (h : LinkWithin n l) : LinkWithin n l.sendNext := by
  obtain ⟨h1, h2⟩ := h
  unfold Link.sendNext
  split
  · rename_i r rs e
    simp only [e, List.length_cons] at h1
    exact ⟨by simp; omega, h2⟩
  · rename_i e
    split
    · rename_i n ns e'
      simp only [e', List.length_cons] at h2
      exact ⟨by simp [e], by simp; omega⟩
    · exact ⟨h1, h2⟩

theorem linkWithin_wake {l : Link} (h : LinkWithin n l) : LinkWithin n l.wake := by
  unfold Link.wake
  split
  · exact linkWithin_sendNext h
  · exact h

/-- A notice keeps both capacities: the FIFO takes none beyond its 16th (R163). -/
theorem linkWithin_queueNotice (now : Tick) (b : NoticeBody) {l : Link} (h : LinkWithin n l) :
    LinkWithin n (l.queueNotice now b) := by
  unfold Link.queueNotice
  split
  · exact h
  · rename_i hlt
    refine linkWithin_wake ⟨h.1, ?_⟩
    simp
    omega

/-- A reply keeps both capacities when the reply queue has room for it (R162). -/
theorem linkWithin_queueReply (r : Reply) {l : Link} (h : LinkWithin n l) : LinkWithin (n + 1) (l.queueReply r) := by
  unfold Link.queueReply
  refine linkWithin_wake ⟨?_, h.2⟩
  have := h.1
  simp
  omega

/-! ## Updates -/

variable {s : State}

theorem Stores.of (h : Stores n s) {t : State} (hl : LinkWithin n t.link) (hr : t.runs.length = s.runs.length)
    (hs : t.sets.length = s.sets.length) (hb : t.bins = s.bins) : Stores n t :=
  ⟨hl, hr.trans h.runs, hs.trans h.sets, by unfold BinLaw; rw [hb]; exact h.bins⟩

@[simp] theorem stores_modComp (x : CompilerId) (f : Compiler → Compiler) (h : Stores n s) : Stores n (modComp x f s) :=
  h.of (by simpa using h.link) (by simp) (by simp) (by simp)
@[simp] theorem stores_modRouter (f : Router → Router) (h : Stores n s) : Stores n (modRouter f s) :=
  h.of h.link rfl rfl rfl
@[simp] theorem stores_modShuttle (f : Shuttle → Shuttle) (h : Stores n s) : Stores n (modShuttle f s) :=
  h.of h.link rfl rfl rfl
@[simp] theorem stores_modTracker (f : Tracker → Tracker) (h : Stores n s) : Stores n (modTracker f s) :=
  h.of h.link rfl rfl rfl
@[simp] theorem stores_modRec (i : Nat) (f : PathRec → PathRec) (h : Stores n s) : Stores n (modRec i f s) :=
  h.of h.link rfl rfl rfl
@[simp] theorem stores_modPins (f : Pins → Pins) (h : Stores n s) : Stores n (modPins f s) := h.of h.link rfl rfl rfl
@[simp] theorem stores_modRun (r : Fin 16) (f : Run → Run) (h : Stores n s) : Stores n (modRun r f s) :=
  h.of h.link (by simp) rfl rfl
@[simp] theorem stores_setRun (r : Fin 16) (o : Option Run) (h : Stores n s) : Stores n (setRun r o s) :=
  h.of h.link (by simp) rfl rfl
@[simp] theorem stores_modSet (k : SetKey) (f : SetRec → SetRec) (h : Stores n s) : Stores n (modSet k f s) :=
  h.of h.link rfl (by simp) rfl
@[simp] theorem stores_clearSet (k : SetKey) (h : Stores n s) : Stores n (clearSet k s) :=
  h.of h.link rfl (by simp) rfl
theorem stores_modLink (f : Link → Link) {m : Nat} (h : Stores n s) (hf : LinkWithin m (f s.link)) :
    Stores m (modLink f s) := ⟨hf, h.runs, h.sets, h.bins⟩
@[simp] theorem stores_notify (b : NoticeBody) (h : Stores n s) : Stores n (notify b s) := by
  unfold notify; repeat' split
  · exact h
  · exact h.of (linkWithin_queueNotice _ _ h.link) rfl rfl rfl
  · exact h

/-! ## Bins -/

theorem getBin_mem (h : s.bins.length = 24) (b : Fin 24) : s.getBin b ∈ s.bins := by
  unfold State.getBin
  have hb : b.val < s.bins.length := by rw [h]; exact b.isLt
  rw [List.getD_eq_getElem?_getD, List.getElem?_eq_getElem hb]
  simp

theorem lawful_getBin (h : Stores n s) (b : Fin 24) : (s.getBin b).lawful := h.bins.2 _ (getBin_mem h.bins.1 b)

theorem getBin_modBin (h : s.bins.length = 24) (b : Fin 24) (f : Bin → Bin) :
    (modBin b f s).getBin b = f (s.getBin b) := by
  have hb : b.val < s.bins.length := by rw [h]; exact b.isLt
  simp [State.getBin, modBin, List.getD_eq_getElem?_getD, List.getElem?_eq_getElem hb]

theorem lawful_modify (f : Bin → Bin) (l : List Bin) (n : Nat) (hl : ∀ q ∈ l, q.lawful)
    (hf : ∀ q, l[n]? = some q → (f q).lawful) : ∀ q ∈ l.modify n f, q.lawful := by
  induction l generalizing n with
  | nil => cases n <;> simp
  | cons a l ih =>
    cases n with
    | zero =>
      intro q hq
      simp only [List.modify_zero_cons, List.mem_cons] at hq
      rcases hq with rfl | hq
      · exact hf a (by simp)
      · exact hl q (List.mem_cons_of_mem _ hq)
    | succ n =>
      intro q hq
      simp only [List.modify_succ_cons, List.mem_cons] at hq
      rcases hq with rfl | hq
      · exact hl q List.mem_cons_self
      · exact ih n (fun q hq => hl q (List.mem_cons_of_mem _ hq)) (fun q hq => hf q (by simpa using hq)) q hq

/-- A change of one bin keeps the law when it does so for that bin. -/
theorem stores_modBin (b : Fin 24) (f : Bin → Bin) (h : Stores n s) (hf : (f (s.getBin b)).lawful) :
    Stores n (modBin b f s) := by
  refine ⟨h.link, h.runs, h.sets, by simpa using h.bins.1, ?_⟩
  refine lawful_modify f _ _ h.bins.2 (fun q hq => ?_)
  have e : s.getBin b = q := by simp [State.getBin, List.getD_eq_getElem?_getD, hq]
  rw [← e]; exact hf

/-- The states that need no empty bin. -/
def BinState.busy (st : BinState) : Bool := st == .owned || st == .full || st == .out

theorem lawful_busy {q : Bin} (h : q.lawful) {st : BinState} (hst : st.busy = true) :
    Bin.lawful { q with state := st } := by
  cases st <;> simp [BinState.busy, Bin.lawful] at hst ⊢ <;> exact ⟨h.1, h.2.1⟩

@[simp] theorem stores_setBusy (b : Fin 24) {st : BinState} (hst : st.busy = true) (h : Stores n s) :
    Stores n (modBin b (fun q => { q with state := st }) s) :=
  stores_modBin b _ h (lawful_busy (lawful_getBin h b) hst)

/-- A bin with no owner is lawful in every state. -/
theorem lawful_ownerless {q : Bin} (h : q.lawful) (ho : q.owner = none) (st : BinState) (pre : Option BinState) :
    Bin.lawful { q with state := st, preOpen := pre } :=
  ⟨h.1, h.2.1, fun _ => ho, fun _ _ => ho⟩

theorem packets_nil_of_ownerless {q : Bin} (h : q.lawful) (ho : q.owner = none) : q.packets = [] := by
  cases hp : q.packets with
  | nil => rfl
  | cons p ps => have := h.1 p (by simp [hp]); simp [ho] at this

/-! ## Pace, delivery, runs -/

@[simp] theorem stores_paceTest (h : Stores n s) : Stores n (paceTest s) := by
  simp only [paceTest]; repeat' split
  all_goals simp (maxDischargeDepth := 12) [h]
theorem stores_claim (r : Fin 16) (b : Fin 24) (h : Stores n s) (hb : (s.getBin b).state = .free) : Stores n (claim r b s) := by
  have hl := lawful_getBin h b
  have hp := packets_nil_of_ownerless hl (hl.2.2.1 (Or.inl hb))
  unfold claim
  refine stores_modRun _ _ (stores_modBin b _ h ?_)
  refine ⟨by simp [hp], by simp [hp], by simp, by simp⟩
@[simp] theorem stores_fillActive (p : Packet) (h : Stores n s) : Stores n (fillActive p s) := by
  simp only [fillActive]; repeat' split
  · exact h
  · exact stores_notify _ (stores_setBusy _ rfl h)
  · exact h
@[simp] theorem stores_spill (p : Packet) (h : Stores n s) : Stores n (spill p s) := by
  simp only [spill]; repeat' split
  all_goals first
    | exact stores_fillActive p h
    | exact stores_modRun _ _ (stores_fillActive p h)
    | (rename_i hb; exact stores_claim _ _ (stores_fillActive p h) (by simpa using hb))
@[simp] theorem stores_selectTarget (p : Packet) (h : Stores n s) : Stores n (selectTarget p s).1 := by
  simp only [selectTarget]; repeat' split
  all_goals simp (maxDischargeDepth := 12) [h]
@[simp] theorem stores_grant (x : CompilerId) (t : Target) (h : Stores n s) : Stores n (grant x t s) := by
  simp only [grant]
  exact stores_paceTest (stores_modComp _ _ (stores_modShuttle _ h))
@[simp] theorem stores_markUndeliverable (x : CompilerId) (p : Packet) (h : Stores n s) : Stores n (markUndeliverable x p s) := by
  simp only [markUndeliverable]; repeat' split
  all_goals simp (maxDischargeDepth := 12) [h]
theorem stores_takeOffers (os : List (CompilerId × Packet)) (h : Stores n s) : Stores n (takeOffers os s) := by
  induction os generalizing s with
  | nil => exact h
  | cons o os ih =>
    obtain ⟨x, p⟩ := o
    have h' := stores_selectTarget p h
    unfold takeOffers
    split
    · rename_i e; rw [e] at h'; exact stores_grant _ _ h'
    · rename_i e; rw [e] at h'; exact ih (stores_markUndeliverable _ _ h')
@[simp] theorem stores_arbitrate (h : Stores n s) : Stores n (arbitrate s) := by
  unfold arbitrate; split
  · exact stores_takeOffers _ h
  · exact h
@[simp] theorem stores_startRetarget (t : Target) (h : Stores n s) : Stores n (startRetarget t s) := by
  simp only [startRetarget]; exact stores_modShuttle _ h
@[simp] theorem stores_retryWaiting (h : Stores n s) : Stores n (retryWaiting s) := by
  unfold retryWaiting; split
  · split
    · exact h
    · rename_i p _
      have h' := stores_selectTarget p h
      split
      · rename_i e; rw [e] at h'; exact stores_startRetarget _ h'
      · rename_i e; rw [e] at h'; exact h'
  · exact h
@[simp] theorem stores_targetEvent (h : Stores n s) : Stores n (targetEvent s) := by simp (maxDischargeDepth := 12) [targetEvent, h]
@[simp] theorem stores_removeRunTest (r : Fin 16) (h : Stores n s) : Stores n (removeRunTest r s) := by
  unfold removeRunTest; split <;> simp (maxDischargeDepth := 12) [h]
theorem stores_disown (b : Fin 24) (h : Stores n s) (hp : (s.getBin b).packets = []) : Stores n (disown b s) := by
  unfold disown; split
  · exact h
  · refine stores_modRun _ _ (stores_modBin b _ h ?_)
    refine ⟨by simp [hp], by simp [hp], by simp, by simp⟩
theorem disown_owner (b : Fin 24) (h : Stores n s) : ((disown b s).getBin b).owner = none := by
  unfold disown; split
  · assumption
  · rename_i r _
    show ((modBin b (fun q => { q with owner := none }) s).getBin b).owner = none
    rw [getBin_modBin h.bins.1]
theorem stores_releaseBin (b : Fin 24) (st : BinState) (h : Stores n s) (hp : (s.getBin b).packets = []) :
    Stores n (releaseBin b st s) := by
  have h1 := stores_disown b h hp
  have h2 : Stores n (modBin b (fun q => { q with state := st }) (disown b s)) :=
    stores_modBin b _ h1 (lawful_ownerless (lawful_getBin h1 b) (disown_owner b h) st _)
  simp only [releaseBin]; repeat' split
  all_goals simp [h2]
theorem stores_releaseEach (bs : List (Fin 24)) (h : Stores n s) : Stores n (releaseEach bs s) := by
  induction bs generalizing s with
  | nil => exact h
  | cons b bs ih =>
    unfold releaseEach
    refine ih ?_
    split
    · rename_i hr
      simp only [Bin.returnable, Bool.and_eq_true, List.isEmpty_iff] at hr
      exact stores_releaseBin b .free h hr.2
    · exact h
@[simp] theorem stores_finishChecks (r : Fin 16) (h : Stores n s) : Stores n (finishChecks r s) := by
  simp only [finishChecks]; split
  · exact stores_removeRunTest _ (stores_releaseEach _ h)
  · simp (maxDischargeDepth := 12) [h]
@[simp] theorem stores_completionTest (r : Fin 16) (h : Stores n s) : Stores n (completionTest r s) := by
  unfold completionTest; repeat' split
  all_goals simp (maxDischargeDepth := 12) [h]
@[simp] theorem stores_countFinished (k : SetKey) (f : Run → Run) (h : Stores n s) : Stores n (countFinished k f s) := by
  simp only [countFinished]
  exact stores_finishChecks _ (stores_completionTest _ (stores_modRun _ _ h))

/-! ## The DELIVERY latch -/

@[simp] theorem stores_overfullBin (b : Fin 24) (h : Stores n s) : Stores n (overfullBin b s) := by
  simp only [overfullBin]; repeat' split
  · exact stores_notify _ (stores_setBusy _ rfl h)
  · refine stores_notify _ (stores_modBin b _ h ?_)
    have hl := lawful_getBin h b
    exact ⟨hl.1, hl.2.1, hl.2.2.1, by simp⟩
  all_goals exact h
theorem stores_foldBins (bs : List (Fin 24)) (h : Stores n s) : Stores n (bs.foldl (fun s b => overfullBin b s) s) := by
  induction bs generalizing s with
  | nil => exact h
  | cons b bs ih => exact ih (stores_overfullBin b h)
@[simp] theorem stores_copyDelivery (h : Stores n s) : Stores n (copyDelivery s) :=
  stores_foldBins _ (h.of h.link rfl rfl rfl)
@[simp] theorem stores_deliveryLatch (h : Stores n s) : Stores n (deliveryLatch s) := by simp (maxDischargeDepth := 12) [deliveryLatch, h]

/-! ## Sets and compilers -/

@[simp] theorem stores_supplyTests (x : CompilerId) (m th : Nat) (h : Stores n s) : Stores n (supplyTests x m th s) := by
  simp only [supplyTests]; repeat' split
  all_goals simp (maxDischargeDepth := 12) [h]
@[simp] theorem stores_compileLatch (x : CompilerId) (h : Stores n s) : Stores n (compileLatch x s) := by
  simp (maxDischargeDepth := 12) [compileLatch, h]
@[simp] theorem stores_becomeEmpty (x : CompilerId) (h : Stores n s) : Stores n (becomeEmpty x s) := by
  unfold becomeEmpty; split <;> simp (maxDischargeDepth := 12) [h]
@[simp] theorem stores_closeTest (x : CompilerId) (h : Stores n s) : Stores n (closeTest x s) := by
  simp only [closeTest]; split <;> simp (maxDischargeDepth := 12) [h]
@[simp] theorem stores_closeTestOf (k : SetKey) (h : Stores n s) : Stores n (closeTestOf k s) := by
  unfold closeTestOf; repeat' split
  all_goals simp (maxDischargeDepth := 12) [h]
@[simp] theorem stores_releaseTest (h : Stores n s) : Stores n (releaseTest s) := by
  unfold releaseTest; repeat' split
  all_goals simp (maxDischargeDepth := 12) [h]
@[simp] theorem stores_afterSetChange (h : Stores n s) : Stores n (afterSetChange s) := by simp (maxDischargeDepth := 12) [afterSetChange, h]
@[simp] theorem stores_promoteOrEmpty (x : CompilerId) (h : Stores n s) : Stores n (promoteOrEmpty x s) := by
  simp only [promoteOrEmpty]; split
  · exact stores_closeTest _ (stores_modSet _ _ (stores_modComp _ _ (stores_modComp _ _ h)))
  · exact stores_becomeEmpty _ (stores_modComp _ _ h)
@[simp] theorem stores_dropSet (k : SetKey) (h : Stores n s) : Stores n (dropSet k s) := by
  simp only [dropSet]; split
  · simp (maxDischargeDepth := 12) [h]
  · exact stores_paceTest (stores_modComp _ _ (stores_clearSet _ h))
  · exact stores_afterSetChange (stores_promoteOrEmpty _ (stores_clearSet _ h))
@[simp] theorem stores_removalTest (k : SetKey) (h : Stores n s) : Stores n (removalTest k s) := by
  unfold removalTest; repeat' split
  · exact h
  · exact stores_countFinished _ _ (stores_dropSet _ h)
  · exact h
@[simp] theorem stores_retireSet (k : SetKey) (h : Stores n s) : Stores n (retireSet k s) :=
  stores_countFinished _ _ (stores_dropSet _ h)
@[simp] theorem stores_drainEnd (q : SetRec) (h : Stores n s) : Stores n (drainEnd q s) := by
  simp only [drainEnd]; split
  · exact stores_closeTestOf _ (stores_removalTest _ (stores_modSet _ _ h))
  · exact stores_closeTestOf _ (stores_notify _ (stores_modSet _ _ h))
@[simp] theorem stores_drainTest (k : SetKey) (h : Stores n s) : Stores n (drainTest k s) := by
  unfold drainTest; repeat' split
  all_goals simp (maxDischargeDepth := 12) [h]
@[simp] theorem stores_divertSet (k : SetKey) (page : Nat) (c : DivertCause) (h : Stores n s) :
    Stores n (divertSet k page c s) := stores_modSet _ _ h
@[simp] theorem stores_giveUp (x : CompilerId) (k : SetKey) (h : Stores n s) : Stores n (giveUp x k s) :=
  stores_divertSet _ _ _ (stores_modSet _ _ (stores_modComp _ _ h))
@[simp] theorem stores_cancelReservation (d : Bool) (x : CompilerId) (k : SetKey) (h : Stores n s) :
    Stores n (cancelReservation d x k s) := by
  cases d <;> simp (maxDischargeDepth := 12) [cancelReservation, h]
@[simp] theorem stores_cancelTest (d : Bool) (x : CompilerId) (h : Stores n s) : Stores n (cancelTest d x s) := by
  simp only [cancelTest]; repeat' split
  all_goals simp (maxDischargeDepth := 12) [h]
@[simp] theorem stores_stackLost (x : CompilerId) (h : Stores n s) : Stores n (stackLost x s) := by
  simp only [stackLost]
  refine stores_releaseTest (stores_paceTest (stores_modComp _ _ ?_))
  repeat' split
  all_goals simp (maxDischargeDepth := 12) [h]

/-! ## The trip -/

@[simp] theorem stores_startOutbound (h : Stores n s) : Stores n (startOutbound s) := by
  unfold startOutbound; split <;> simp (maxDischargeDepth := 12) [h]
@[simp] theorem stores_packetAboard (p : Packet) (b : Bool) (h : Stores n s) : Stores n (packetAboard p b s) := by
  simp only [packetAboard]; split <;> simp (maxDischargeDepth := 12) [h]
@[simp] theorem stores_transferEnd (x : CompilerId) (h : Stores n s) : Stores n (transferEnd x s) := by
  simp only [transferEnd]
  refine stores_afterSetChange (stores_promoteOrEmpty _ ?_)
  split <;> split <;> simp (maxDischargeDepth := 12) [h]
theorem stores_dropInto (t : Target) (p : Packet) (h : Stores n s) (ht : targetTakes s p t = true) :
    Stores n (dropInto t p s).1 := by
  cases t with
  | shelf => exact h.of h.link rfl rfl rfl
  | bin b =>
    have hl := lawful_getBin h b
    simp only [targetTakes, binTakes, Bool.and_eq_true, decide_eq_true_eq, beq_iff_eq] at ht
    obtain ⟨⟨⟨h1, h2⟩, _⟩, h4⟩ := ht
    refine stores_modBin b _ h ⟨?_, ?_, ?_, ?_⟩
    · intro q hq
      simp only [List.mem_append, List.mem_singleton] at hq
      rcases hq with hq | rfl
      · exact hl.1 q hq
      · exact h2
    · simp; omega
    · simp [h1]
    · simp [h1]
theorem stores_dropStart (t : Target) (p : Packet) (h : Stores n s) (ht : targetTakes s p t = true) :
    Stores n (dropStart t p s) := by
  simp only [dropStart]
  refine stores_retireSet _ (stores_modShuttle _ (stores_notify _ (stores_dropInto t p (stores_modShuttle _ h) ?_)))
  exact ht
@[simp] theorem stores_waitAtLevel (p : Packet) (h : Stores n s) : Stores n (waitAtLevel p s) := by
  simp only [waitAtLevel]; split <;> simp (maxDischargeDepth := 12) [h]
@[simp] theorem stores_checkAtLevel (p : Packet) (h : Stores n s) : Stores n (checkAtLevel p s) := by
  have h' := stores_selectTarget p h
  unfold checkAtLevel; split
  · rename_i t e
    rw [Option.filter_eq_some_iff] at e
    exact stores_dropStart t p h e.2
  · split
    · rename_i e; rw [e] at h'; exact stores_startRetarget _ h'
    · rename_i e; rw [e] at h'; exact stores_waitAtLevel _ h'
@[simp] theorem stores_arrive (m : Move) (h : Stores n s) : Stores n (arrive m s) := by
  simp only [arrive]; split <;> simp (maxDischargeDepth := 12) [h]
@[simp] theorem stores_dock (h : Stores n s) : Stores n (dock s) := by simp (maxDischargeDepth := 12) [dock, h]
@[simp] theorem stores_moveEnd (m : Move) (h : Stores n s) : Stores n (moveEnd m s) := by
  unfold moveEnd; split <;> simp (maxDischargeDepth := 12) [h]
@[simp] theorem stores_startReturn (h : Stores n s) : Stores n (startReturn s) := by simp (maxDischargeDepth := 12) [startReturn, h]
@[simp] theorem stores_restartMove (m : Move) (h : Stores n s) : Stores n (restartMove m s) := by simp (maxDischargeDepth := 12) [restartMove, h]
@[simp] theorem stores_resumeMove (m : Move) (h : Stores n s) : Stores n (resumeMove m s) := by
  unfold resumeMove; repeat' split
  all_goals simp (maxDischargeDepth := 12) [h]
@[simp] theorem stores_faultExit (h : Stores n s) : Stores n (faultExit s) := by
  unfold faultExit; repeat' split
  all_goals simp (maxDischargeDepth := 12) [h]
@[simp] theorem stores_loseOnBoard (h : Stores n s) : Stores n (loseOnBoard s) := by
  unfold loseOnBoard; split
  · exact h
  · exact stores_retireSet _ (stores_modShuttle _ (stores_notify _ h))
@[simp] theorem stores_moveFailed (m : Move) (h : Stores n s) : Stores n (moveFailed m s) := by
  simp only [moveFailed]
  exact stores_paceTest (stores_loseOnBoard (stores_notify _ (stores_modShuttle _ h)))
@[simp] theorem stores_resumeMoving (h : Stores n s) : Stores n (resumeMoving s) := by
  unfold resumeMoving; repeat' split
  all_goals simp (maxDischargeDepth := 12) [h]
@[simp] theorem stores_resumeShuttle (h : Stores n s) : Stores n (resumeShuttle s) := by
  unfold resumeShuttle; repeat' split
  all_goals simp (maxDischargeDepth := 12) [h]

/-! ## The close -/

@[simp] theorem stores_land (x : CompilerId) (tag : Nat) (sh : Sheet) (h : Stores n s) : Stores n (land x tag sh s) := by
  simp only [land]
  have h' := stores_closeTest x (stores_modSet sh.key (fun q => { q with inCompiler := q.inCompiler + 1 })
    (stores_modComp x (fun c =>
      { c with count := c.count + 1, tags := c.tags ++ [tag],
               thickness := min Config.stackLimit (c.thickness + s.mediaThickness sh.media),
               paper := true, lastLanding := s.now }) h))
  split
  · exact stores_paceTest h'
  · exact h'
@[simp] theorem stores_closeStart (x : CompilerId) (q : SetRec) (r : Run) (h : Stores n s) : Stores n (closeStart x q r s) := by
  simp only [closeStart]
  exact stores_paceTest (stores_modComp _ _ (stores_modRun _ _ (stores_modSet _ _ (h.of h.link rfl rfl rfl))))
@[simp] theorem stores_closeEnd (x : CompilerId) (h : Stores n s) : Stores n (closeEnd x s) := by simp (maxDischargeDepth := 12) [closeEnd, h]
@[simp] theorem stores_strokeStart (x : CompilerId) (p : CloseProgress) (h : Stores n s) : Stores n (strokeStart x p s) := by
  simp (maxDischargeDepth := 12) [strokeStart, h]
@[simp] theorem stores_strokeTest (x : CompilerId) (h : Stores n s) : Stores n (strokeTest x s) := by
  simp only [strokeTest]; repeat' split
  all_goals simp (maxDischargeDepth := 12) [h]
@[simp] theorem stores_staplerFault (x : CompilerId) (c : StaplerCause) (h : Stores n s) : Stores n (staplerFault x c s) := by
  simp only [staplerFault]; split <;> simp (maxDischargeDepth := 12) [h]
@[simp] theorem stores_strokeFormed (x : CompilerId) (h : Stores n s) : Stores n (strokeFormed x s) := by
  simp (maxDischargeDepth := 12) [strokeFormed, h]
@[simp] theorem stores_strokeNotFormed (x : CompilerId) (p : CloseProgress) (h : Stores n s) :
    Stores n (strokeNotFormed x p s) := by
  unfold strokeNotFormed; split <;> simp (maxDischargeDepth := 12) [h]
@[simp] theorem stores_clearWaitClosing (x : CompilerId) (h : Stores n s) : Stores n (clearWaitClosing x s) := by
  simp only [clearWaitClosing]; repeat' split
  all_goals simp (maxDischargeDepth := 12) [h]
@[simp] theorem stores_resumeTransfer (x : CompilerId) (h : Stores n s) : Stores n (resumeTransfer x s) := by
  simp only [resumeTransfer]; repeat' split
  all_goals simp (maxDischargeDepth := 12) [h]
@[simp] theorem stores_resumeCompiler (x : CompilerId) (h : Stores n s) : Stores n (resumeCompiler x s) := by
  unfold resumeCompiler; split <;> simp (maxDischargeDepth := 12) [h]
@[simp] theorem stores_endRunningTransfer (x : CompilerId) (h : Stores n s) : Stores n (endRunningTransfer x s) := by
  unfold endRunningTransfer; split <;> simp (maxDischargeDepth := 12) [h]

/-! ## Doors and service -/

theorem stores_settleBin (b : Fin 24) (st : BinState) (h : Stores n s)
    (hst : Bin.lawful { s.getBin b with state := st }) : Stores n (settleBin b st s) := by
  have h' : Stores n (modBin b (fun q => { q with state := st }) s) := stores_modBin b _ h hst
  simp only [settleBin]; split <;> simp (maxDischargeDepth := 12) [h']
theorem stores_settleReleased (b : Fin 24) (st : BinState) (h : Stores n s) (hp : (s.getBin b).packets = []) :
    Stores n (settleReleased b st s) := by
  unfold settleReleased; split
  · exact stores_releaseBin b st h hp
  · rename_i ho
    exact stores_settleBin b st h (lawful_ownerless (lawful_getBin h b) (by simpa using ho) st _)
theorem stores_settleCollected (b : Fin 24) (pre : BinState) (h : Stores n s) (hp : (s.getBin b).packets = []) :
    Stores n (settleCollected b pre s) := by
  unfold settleCollected; repeat' split
  all_goals first
    | exact stores_settleReleased b _ h hp
    | exact stores_settleBin b _ h (lawful_busy (lawful_getBin h b) rfl)
    | exact h
theorem getBin_notify (b : Fin 24) (n : NoticeBody) (s : State) : (notify n s).getBin b = s.getBin b := by
  unfold notify; repeat' split
  all_goals rfl
theorem stores_collect (b : Fin 24) (pre : BinState) (h : Stores n s) : Stores n (collect b pre s) := by
  have hl := lawful_getBin h b
  have h' : Stores n (modBin b (fun q => { q with packets := [], preOpen := none }) s) :=
    stores_modBin b _ h ⟨by simp, by simp, hl.2.2.1, by simp⟩
  simp only [collect]
  refine stores_settleCollected b pre (stores_notify _ h') ?_
  rw [getBin_notify, getBin_modBin h.bins.1]
theorem stores_restoreBin (b : Fin 24) (pre : BinState) (h : Stores n s) (hopen : (s.getBin b).state = .opened)
    (hpre : (s.getBin b).preOpen = some pre) : Stores n (restoreBin b pre s) := by
  have hl := lawful_getBin h b
  have hl' : Bin.lawful { s.getBin b with preOpen := none } := ⟨hl.1, hl.2.1, hl.2.2.1, by simp⟩
  have h' : Stores n (modBin b (fun q => { q with preOpen := none }) s) := stores_modBin b _ h hl'
  unfold restoreBin
  refine stores_settleBin b _ h' ?_
  rw [getBin_modBin h.bins.1]
  cases pre with
  | free => exact lawful_ownerless hl' (hl.2.2.2 hopen (Or.inl hpre)) _ _
  | held => exact lawful_ownerless hl' (hl.2.2.2 hopen (Or.inr hpre)) _ _
  | opened => exact ⟨hl.1, hl.2.1, by simp, by simp⟩
  | owned => exact lawful_busy hl' rfl
  | full => exact lawful_busy hl' rfl
  | out => exact lawful_busy hl' rfl
@[simp] theorem stores_closeDoor (b : Fin 24) (h : Stores n s) : Stores n (closeDoor b s) := by
  have hl := lawful_getBin h b
  have h' : Stores n (modBin b (fun q => { q with door := false }) s) := stores_modBin b _ h hl
  simp only [closeDoor]; repeat' split
  · exact h'
  · rename_i pre hpre hopen _
    exact stores_restoreBin b pre h' hopen hpre
  · exact stores_collect b _ h'
  · exact h'
@[simp] theorem stores_openDoor (b : Fin 24) (h : Stores n s) : Stores n (modBin b Bin.openDoor s) := by
  have hl := lawful_getBin h b
  refine stores_modBin b _ h ?_
  unfold Bin.openDoor
  split
  · exact hl
  · refine ⟨hl.1, hl.2.1, by simp, fun _ hp => ?_⟩
    simp only [Option.some.injEq] at hp
    exact hl.2.2.1 hp
@[simp] theorem stores_binPaper (b : Fin 24) (v : Bool) (h : Stores n s) :
    Stores n (modBin b (fun q => { q with paper := v }) s) := stores_modBin b _ h (lawful_getBin h b)
@[simp] theorem stores_takeOut (b : Fin 24) (h : Stores n s) : Stores n (modBin b Bin.takeOut s) := by
  have hl := lawful_getBin h b
  refine stores_modBin b _ h ?_
  unfold Bin.takeOut
  split
  · exact ⟨hl.1, hl.2.1, hl.2.2.1, by simp⟩
  · exact hl
  all_goals exact ⟨hl.1, hl.2.1, by simp, by simp⟩

/-! ## Bin Service IN (R139) -/

theorem inResult_lawful (b : Fin 24) (hr : (inResult s b).2 = false) :
    (inResult s b).1.busy = true ∨ (s.getBin b).owner = none := by
  revert hr
  simp only [inResult]
  repeat' split
  all_goals simp_all [BinState.busy]
theorem inResult_released (b : Fin 24) (hr : (inResult s b).2 = true) : (s.getBin b).packets = [] := by
  revert hr
  simp only [inResult]
  repeat' split
  all_goals simp_all
theorem stores_releaseOpen (b : Fin 24) (h : Stores n s) (hp : (s.getBin b).packets = []) : Stores n (releaseOpen b s) := by
  unfold releaseOpen; split
  · exact h
  · exact stores_removeRunTest _ (stores_disown b h hp)
theorem getBin_removeRunTest (r : Fin 16) (b : Fin 24) (s : State) : (removeRunTest r s).getBin b = s.getBin b := by
  unfold removeRunTest; split <;> rfl
theorem releaseOpen_owner (b : Fin 24) (h : Stores n s) : ((releaseOpen b s).getBin b).owner = none := by
  unfold releaseOpen; split
  · assumption
  · rw [getBin_removeRunTest]; exact disown_owner b h
@[simp] theorem stores_bringIn (b : Fin 24) (h : Stores n s) : Stores n (bringIn b s) := by
  have hl := lawful_getBin h b
  simp only [bringIn]
  split
  · split
    · rename_i hr
      exact stores_releaseBin b _ h (inResult_released b hr)
    · rename_i hr
      refine stores_settleBin b _ h ?_
      rcases inResult_lawful b (by simpa using hr) with hst | ho
      · exact lawful_busy hl hst
      · exact lawful_ownerless hl ho _ _
  · split
    · split
      · rename_i hr
        have h' := stores_releaseOpen b h (inResult_released b hr)
        exact stores_modBin b _ h' (lawful_ownerless (lawful_getBin h' b) (releaseOpen_owner b h) _ _)
      · rename_i hr
        refine stores_modBin b _ h ?_
        rcases inResult_lawful b (by simpa using hr) with hst | ho
        · refine ⟨hl.1, hl.2.1, hl.2.2.1, fun _ hp => ?_⟩
          revert hst
          simp only [Option.some.injEq] at hp
          rcases hp with e | e <;> simp [e, BinState.busy]
        · exact lawful_ownerless hl ho _ _
    · exact h
@[simp] theorem stores_serveBin (a : ServiceAction) (b : Fin 24) (h : Stores n s) : Stores n (serveBin a b s).1 := by
  cases a
  · exact stores_takeOut b h
  · exact stores_bringIn b h
@[simp] theorem stores_serveBins (a : ServiceAction) (bs : List (Fin 24)) (h : Stores n s) : Stores n (serveBins a bs s).1 := by
  induction bs generalizing s with
  | nil => exact h
  | cons b bs ih => exact ih (stores_serveBin a b h)

end Sys2Proof.Machine
end

