-- ==== Sys2Proof/Laws/Path.lean ====
section
/-! SUPPORT. What the operations of the path, the intake and the recovery (02, 04, 05, 08) keep: the law of RUN with its timers,
the capacities of queue and path table, and what Laws/Stores.lean says of the tables, said once for each operation. -/

namespace Sys2Proof.Machine

/-- A state of the running part that keeps every law of Safety.lean. -/
structure Lawful (n : Nat) (s : State) : Prop where
  stores : Stores n s
  running : RunningLaw s
  path : PathCapacity s
  recovery : ∀ l, s.recovery = some l → l.entries.length ≤ 32

/-! ## What of a path record the laws read -/

/-- A record's kind, its S0 clear time and whether it has a sheet. -/
def PathRec.spot (r : PathRec) : RecKind × Option Tick × Bool := (r.kind, r.clear.s0, r.sheet.isSome)

theorem spot_of_still {l m : List PathRec} (h : l.map PathRec.still = m.map PathRec.still) :
    l.map PathRec.spot = m.map PathRec.spot := by
  have e : ∀ k : List PathRec, k.map PathRec.spot = (k.map PathRec.still).map PathRec.spot := by
    intro k; simp only [List.map_map]; rfl
  rw [e l, e m, h]

theorem map_spot_modify (f : PathRec → PathRec) (hf : ∀ r, (f r).spot = r.spot) (i : Nat) (l : List PathRec) :
    (l.modify i f).map PathRec.spot = l.map PathRec.spot := by
  induction l generalizing i with
  | nil => cases i <;> rfl
  | cons r l ih => cases i <;> simp [hf, ih]

/-- The record waits for its S0 clear event with a place held (R26). -/
def holdsPlace (x : RecKind × Option Tick × Bool) : Bool := (x.1 == .tentative || x.1 == .void) && x.2.1.isNone

theorem placesHeld_eq (s : State) : s.placesHeld = (s.tracker.path.map PathRec.spot).countP holdsPlace := by
  unfold State.placesHeld
  rw [List.countP_map]
  rfl

/-- PathCapacity as a property of the queue's length and the spots. -/
def SpotCapacity (n : Nat) (l : List (RecKind × Option Tick × Bool)) : Prop :=
  n + l.countP holdsPlace ≤ Config.queuePlaces ∧ l.length ≤ Config.pathPlaces ∧
    ∀ x ∈ l, x.2.1 = none → x.2.2 = true → x.1 = .tentative ∨ x.1 = .void

theorem pathCapacity_iff (s : State) :
    PathCapacity s ↔ SpotCapacity s.queue.length (s.tracker.path.map PathRec.spot) := by
  unfold PathCapacity SpotCapacity
  rw [placesHeld_eq]
  simp only [List.length_map, List.mem_map, forall_exists_index, and_imp, forall_apply_eq_imp_iff₂, PathRec.spot,
    Option.isSome_iff_ne_none]

/-! ## Moving a law along an operation -/

/-- A state that agrees on all that the laws of the path read keeps them. -/
theorem Lawful.of {s t : State} (h : Lawful n s) (hs : Stores n t) (hp : t.pins = s.pins)
    (hq : t.queue.length = s.queue.length) (htr : t.tracker.transport = s.tracker.transport)
    (hc : t.tracker.causes = s.tracker.causes) (hsp : t.tracker.spinup = s.tracker.spinup)
    (hi : t.tracker.idle = s.tracker.idle)
    (hspot : t.tracker.path.map PathRec.spot = s.tracker.path.map PathRec.spot) (hr : t.recovery = s.recovery) :
    Lawful n t := by
  have hq' : t.queue = [] ↔ s.queue = [] := by rw [← List.length_eq_zero_iff, ← List.length_eq_zero_iff, hq]
  have hl : t.tracker.path = [] ↔ s.tracker.path = [] := by
    have e := congrArg List.length hspot
    simp only [List.length_map] at e
    rw [← List.length_eq_zero_iff, ← List.length_eq_zero_iff, e]
  obtain ⟨h1, h2, h3, h4⟩ := h
  refine ⟨hs, ?_, ?_, by rw [hr]; exact h4⟩
  · unfold RunningLaw TransportTimers CoversCaused Calm at h2 ⊢
    rw [hp, htr, hc, hsp, hi, hr]
    simp only [ne_eq, hq', hl]
    exact h2
  · rw [pathCapacity_iff, hq, hspot, ← pathCapacity_iff]; exact h3

/-- A delivery-side operation keeps every law of the path. -/
theorem Lawful.base {s t : State} (h : Lawful n s) (hs : Stores n t) (hb : t.base = s.base) : Lawful n t :=
  h.of hs (pins_of_base hb) (by rw [queue_of_base hb]) (transport_of_base hb) (causes_of_base hb) (spinup_of_base hb)
    (idle_of_base hb) (spot_of_still (still_of_base hb)) (recovery_of_base hb)

/-- A change of one record that leaves its spot alone keeps every law. -/
theorem lawful_modRec {s : State} (h : Lawful n s) (i : Nat) (f : PathRec → PathRec) (hf : ∀ r, (f r).spot = r.spot) :
    Lawful n (modRec i f s) :=
  h.of (stores_modRec _ _ h.stores) rfl rfl rfl rfl rfl rfl (map_spot_modify f hf i _) rfl

/-- In HALT the table, the queue and the timers are empty. -/
theorem RunningLaw.inHalt {s : State} (h : RunningLaw s) (hh : s.tracker.transport = .halt) :
    s.tracker.path = [] ∧ s.queue = [] ∧ s.tracker.spinup = none ∧ s.tracker.idle = none := by
  obtain ⟨⟨h1, h2, h3, h4⟩, _⟩ := h
  rw [hh] at h1 h2 h3 h4
  refine ⟨?_, ?_, ?_, ?_⟩
  · by_contra hne; exact absurd (h3 hne) (by decide)
  · by_contra hne; rcases h4 hne with e | e <;> exact absurd e (by decide)
  · cases e : s.tracker.spinup with
    | none => rfl
    | some _ => exact absurd (h1 (by simp [e])) (by decide)
  · cases e : s.tracker.idle with
    | none => rfl
    | some _ => exact absurd (h2 (by simp [e])).1 (by decide)

/-- Outside HALT the covers are closed and no cause stands. -/
theorem RunningLaw.calm {s : State} (h : RunningLaw s) (hh : s.tracker.transport ≠ .halt) : Calm s := h.2.2.1 hh

variable {n : Nat} {s : State}

@[simp] theorem lawful_notify (b : NoticeBody) (h : Lawful n s) : Lawful n (notify b s) :=
  h.base (stores_notify b h.stores) (base_notify b s)
@[simp] theorem lawful_paceTest (h : Lawful n s) : Lawful n (paceTest s) :=
  h.base (stores_paceTest h.stores) (base_paceTest s)
@[simp] theorem lawful_modRouter (f : Router → Router) (h : Lawful n s) : Lawful n (modRouter f s) :=
  h.base (stores_modRouter f h.stores) rfl
@[simp] theorem lawful_modSet (k : SetKey) (f : SetRec → SetRec) (h : Lawful n s) : Lawful n (modSet k f s) :=
  h.base (stores_modSet k f h.stores) rfl
@[simp] theorem lawful_modComp (x : CompilerId) (f : Compiler → Compiler) (h : Lawful n s) : Lawful n (modComp x f s) :=
  h.base (stores_modComp x f h.stores) (base_modComp x f s)
@[simp] theorem lawful_drainTest (k : SetKey) (h : Lawful n s) : Lawful n (drainTest k s) :=
  h.base (stores_drainTest k h.stores) (base_drainTest k s)
@[simp] theorem lawful_removalTest (k : SetKey) (h : Lawful n s) : Lawful n (removalTest k s) :=
  h.base (stores_removalTest k h.stores) (base_removalTest k s)
@[simp] theorem lawful_closeTestOf (k : SetKey) (h : Lawful n s) : Lawful n (closeTestOf k s) :=
  h.base (stores_closeTestOf k h.stores) (base_closeTestOf k s)
@[simp] theorem lawful_releaseTest (h : Lawful n s) : Lawful n (releaseTest s) :=
  h.base (stores_releaseTest h.stores) (base_releaseTest s)
@[simp] theorem lawful_cancelTest (d : Bool) (x : CompilerId) (h : Lawful n s) : Lawful n (cancelTest d x s) :=
  h.base (stores_cancelTest d x h.stores) (base_cancelTest d x s)
@[simp] theorem lawful_divertSet (k : SetKey) (page : Nat) (c : DivertCause) (h : Lawful n s) :
    Lawful n (divertSet k page c s) := h.base (stores_divertSet k page c h.stores) rfl

/-! ## Taking stock (R143 to R150) -/

theorem base_changeListed (es : List RecoveryEntry) (s : State) : (changeListed es s).base = s.base := by
  unfold changeListed
  induction es generalizing s with
  | nil => rfl
  | cons e es ih => simp [ih]
theorem stores_changeListed (es : List RecoveryEntry) (h : Stores n s) : Stores n (changeListed es s) := by
  unfold changeListed
  induction es generalizing s with
  | nil => exact h
  | cons e es ih => exact ih (stores_modSet _ _ h)
@[simp] theorem base_abortedAtHalt (k : SetKey) (s : State) : (abortedAtHalt k s).base = s.base := by
  simp [abortedAtHalt]
@[simp] theorem stores_abortedAtHalt (k : SetKey) (h : Stores n s) : Stores n (abortedAtHalt k s) :=
  stores_closeTestOf _ (stores_removalTest _ (stores_modSet _ _ h))
theorem base_abortedFold (qs : List SetRec) (s : State) :
    (qs.foldl (fun s q => abortedAtHalt q.key s) s).base = s.base := by
  induction qs generalizing s with
  | nil => rfl
  | cons q qs ih => simp [ih]
theorem stores_abortedFold (qs : List SetRec) (h : Stores n s) : Stores n (qs.foldl (fun s q => abortedAtHalt q.key s) s) := by
  induction qs generalizing s with
  | nil => exact h
  | cons q qs ih => exact ih (stores_abortedAtHalt _ h)
@[simp] theorem base_loseNamed (h : Handed) (s : State) : (loseNamed h s).base = s.base := by
  simp only [loseNamed]; repeat' split
  all_goals simp
@[simp] theorem stores_loseNamed (hd : Handed) (h : Stores n s) : Stores n (loseNamed hd s) := by
  simp only [loseNamed]; repeat' split
  all_goals simp (maxDischargeDepth := 12) [h]

theorem length_filterMap_setRecs {β : Type} (f : SetRec → Option β) (h : s.sets.length = 32) :
    (s.setRecs.filterMap f).length ≤ 32 := by
  refine le_trans (List.length_filterMap_le _ _) ?_
  rw [← h]
  exact List.length_filterMap_le _ _

/-- The stock-taking changes nothing of the base but the recovery list (R144). -/
theorem base_buildList (hd : Handed) (s : State) :
    (buildList hd s).base = { s.base with recovery := (buildList hd s).recovery } := by
  have h : ∀ (l : Option RecoveryList) (u : State),
      (paceTest (closeTest .b (closeTest .a { u with recovery := l }))).base = { u.base with recovery := l } := by
    intro l u; simp; rfl
  have h' : ∀ (l : Option RecoveryList) (u : State),
      (paceTest (closeTest .b (closeTest .a { u with recovery := l }))).recovery = l := by
    intro l u
    exact recovery_of_base (s := { u with recovery := l }) (by simp)
  simp only [buildList]
  rw [h, h', base_abortedFold]
  simp only [base_cancelTest, base_changeListed, base_loseNamed]

/-- The list a halt with losses builds has an entry for some of the 32 slots (R147). -/
theorem recovery_buildList (hd : Handed) (h : Stores n s) :
    ∀ l, (buildList hd s).recovery = some l → l.entries.length ≤ 32 := by
  have h' : ∀ (l : Option RecoveryList) (u : State),
      (paceTest (closeTest .b (closeTest .a { u with recovery := l }))).recovery = l := by
    intro l u
    exact recovery_of_base (s := { u with recovery := l }) (by simp)
  intro l hl
  simp only [buildList] at hl
  rw [h'] at hl
  simp only [Option.some.injEq] at hl
  subst hl
  exact length_filterMap_setRecs _ (stores_loseNamed hd h).sets

theorem stores_buildList (hd : Handed) (h : Stores n s) : Stores n (buildList hd s) := by
  simp only [buildList]
  refine stores_paceTest (stores_closeTest _ (stores_closeTest _ ?_))
  have h2 := stores_abortedFold
    ((loseNamed hd s).setRecs.filter (fun q => q.aborted && (affectedCause hd (lostSets s hd) q.key).isSome))
    (stores_cancelTest false .b (stores_cancelTest false .a
      (stores_changeListed ((loseNamed hd s).setRecs.filterMap (recoveryEntry (loseNamed hd s) hd (lostSets s hd)))
        (stores_loseNamed hd h))))
  exact h2.of h2.link rfl rfl rfl

/-! ## Halts (R67, R80, R83) -/

/-- The laws of the path but for the covers' causes. -/
structure Haltable (n : Nat) (s : State) : Prop where
  stores : Stores n s
  timers : TransportTimers s
  path : PathCapacity s
  recovery : ∀ l, s.recovery = some l → l.entries.length ≤ 32

theorem Haltable.base {s t : State} (h : Haltable n s) (hs : Stores n t) (hb : t.base = s.base) : Haltable n t := by
  refine ⟨hs, ?_, ?_, by rw [recovery_of_base hb]; exact h.recovery⟩
  · have hl : t.tracker.path = [] ↔ s.tracker.path = [] := by
      rw [← List.length_eq_zero_iff, ← List.length_eq_zero_iff, pathLength_of_base hb]
    have ht := h.timers
    unfold TransportTimers at ht ⊢
    rw [transport_of_base hb, spinup_of_base hb, idle_of_base hb, queue_of_base hb]
    simp only [ne_eq, hl]
    exact ht
  · rw [pathCapacity_iff, queue_of_base hb, spot_of_still (still_of_base hb), ← pathCapacity_iff]; exact h.path

/-- What a halt cause leaves (R67): HALT, with the cause among the causes. -/
theorem halt_leaves {cause : HaltCause} {jam : Option (JamKind × Sensor)} {b : NoticeBody} (h : Haltable n s) :
    Haltable n (halt cause jam b s) ∧ (halt cause jam b s).tracker.transport = .halt ∧
      (halt cause jam b s).tracker.causes = s.tracker.causes.add cause ∧ (halt cause jam b s).pins = s.pins := by
  have said : ∀ u : State, Haltable n u → u.tracker.transport = .halt → u.tracker.causes = s.tracker.causes.add cause →
      u.pins = s.pins → Haltable n (notify b u) ∧ (notify b u).tracker.transport = .halt ∧
      (notify b u).tracker.causes = s.tracker.causes.add cause ∧ (notify b u).pins = s.pins := by
    intro u h1 h2 h3 h4
    have hb := base_notify b u
    exact ⟨h1.base (stores_notify b h1.stores) hb, by rw [transport_of_base hb, h2], by rw [causes_of_base hb, h3],
      by rw [pins_of_base hb, h4]⟩
  unfold halt
  split
  · rename_i hh
    exact said _ ⟨stores_modTracker _ h.stores, h.timers, h.path, h.recovery⟩ hh rfl rfl
  · have h1 : Haltable n (stopTransport { cause := cause, jam := jam, time := s.now } s) := by
      refine ⟨h.stores.of h.stores.link rfl rfl rfl, ?_, ?_, h.recovery⟩
      · exact ⟨by simp [stopTransport], by simp [stopTransport], by simp [stopTransport], by simp [stopTransport]⟩
      · exact ⟨by simp [stopTransport, State.placesHeld], by simp [stopTransport], by simp [stopTransport]⟩
    have key : ∀ u : State, u = stopTransport { cause := cause, jam := jam, time := s.now } s ∨
        u = buildList { path := s.tracker.path, queue := s.queue, halt := { cause := cause, jam := jam, time := s.now } }
          (stopTransport { cause := cause, jam := jam, time := s.now } s) →
        Haltable n (notify b u) ∧ (notify b u).tracker.transport = .halt ∧
          (notify b u).tracker.causes = s.tracker.causes.add cause ∧ (notify b u).pins = s.pins := by
      rintro u (rfl | rfl)
      · exact said _ h1 rfl rfl rfl
      · have hb := base_buildList { path := s.tracker.path, queue := s.queue, halt := { cause := cause, jam := jam, time := s.now } }
          (stopTransport { cause := cause, jam := jam, time := s.now } s)
        have e1 := congrArg State.pins hb
        have e2 := congrArg State.queue hb
        have e3 := congrArg State.tracker hb
        have e4 := recovery_buildList
          { path := s.tracker.path, queue := s.queue, halt := { cause := cause, jam := jam, time := s.now } } h1.stores
        have e5 := stores_buildList
          { path := s.tracker.path, queue := s.queue, halt := { cause := cause, jam := jam, time := s.now } } h1.stores
        generalize buildList _ (stopTransport _ s) = u at *
        have p1 : u.tracker.transport = .halt := congrArg Tracker.transport e3
        have p2 : u.tracker.spinup = none := congrArg Tracker.spinup e3
        have p3 : u.tracker.idle = none := congrArg Tracker.idle e3
        have p4 : u.tracker.path.map PathRec.still = [] := congrArg Tracker.path e3
        have p5 : u.tracker.causes = s.tracker.causes.add cause := congrArg Tracker.causes e3
        have p6 : u.queue = [] := e2
        have p7 : u.pins = s.pins := e1
        have p8 : u.tracker.path = [] := by simpa using p4
        refine said _ ⟨e5, ?_, ?_, e4⟩ p1 p5 p7
        · exact ⟨by simp [p2], by simp [p3], by simp [p8], by simp [p6]⟩
        · exact ⟨by simp [p6, p8, State.placesHeld], by simp [p8], by simp [p8]⟩
    refine key _ ?_
    split
    · exact Or.inl rfl
    · unfold takeStock
      split
      · exact Or.inr rfl
      · exact Or.inl rfl

/-- A halt cause keeps the laws, given that the covers' causes stand once this one is added: the one place where a cover is
already open before its cause stands is a cover opening (R69). -/
theorem lawful_halt {cause : HaltCause} {jam : Option (JamKind × Sensor)} {b : NoticeBody} (h : Haltable n s)
    (hf : s.pins.front = true → (s.tracker.causes.add cause).coverFront = true)
    (htop : s.pins.top = true → (s.tracker.causes.add cause).coverTop = true) : Lawful n (halt cause jam b s) := by
  obtain ⟨⟨h1, h2, h3, h4⟩, h5, h6, h7⟩ := halt_leaves (cause := cause) (jam := jam) (b := b) h
  refine ⟨h1, ⟨h2, ?_, fun hne => absurd h5 hne, fun _ => Or.inl h5⟩, h3, h4⟩
  unfold CoversCaused; rw [h6, h7]; exact ⟨hf, htop⟩

theorem lawful_haltNoCover {cause : HaltCause} {jam : Option (JamKind × Sensor)} {b : NoticeBody} (h : Lawful n s) :
    Lawful n (halt cause jam b s) := by
  have hc := h.running.2.1
  refine lawful_halt ⟨h.stores, h.running.1, h.path, h.recovery⟩ ?_ ?_
  · intro e; cases cause <;> simp [CauseSet.add, hc.1 e]
  · intro e; cases cause <;> simp [CauseSet.add, hc.2 e]

@[simp] theorem lawful_jamAtSensor (k : JamKind) (x : Sensor) (h : Lawful n s) : Lawful n (jamAtSensor k x s) :=
  lawful_haltNoCover h
@[simp] theorem lawful_jamOfRecord (k : JamKind) (x : Sensor) (r : PathRec) (d : Option Tick) (h : Lawful n s) :
    Lawful n (jamOfRecord k x r d s) := lawful_haltNoCover h
@[simp] theorem lawful_purgeRouteTest (h : Lawful n s) : Lawful n (purgeRouteTest s) := by
  unfold purgeRouteTest; split
  · exact lawful_haltNoCover h
  · exact h

/-! ## Leaving HALT (R68, R70, R151) -/

@[simp] theorem lawful_jamTest (h : Lawful n s) : Lawful n (jamTest s) := by
  unfold jamTest; split
  · rename_i hh
    refine ⟨stores_modTracker _ h.stores, ⟨h.running.1, h.running.2.1, fun hne => absurd hh.1 hne,
      fun _ => Or.inl hh.1⟩, h.path, h.recovery⟩
  · exact h

theorem causes_eq_of_isEmpty {c : CauseSet} (h : c.isEmpty = true) : c = {} := by
  obtain ⟨a, b, c, d⟩ := c
  cases a <;> cases b <;> cases c <;> cases d <;> simp [CauseSet.isEmpty] at h ⊢

@[simp] theorem lawful_leaveTest (h : Lawful n s) : Lawful n (leaveTest s) := by
  unfold leaveTest
  split
  · rename_i hc
    simp only [Bool.and_eq_true, beq_iff_eq] at hc
    obtain ⟨⟨⟨hh, he⟩, _⟩, _⟩ := hc
    obtain ⟨p1, p2, p3, p4⟩ := h.running.inHalt hh
    have he' := causes_eq_of_isEmpty he
    have hcov := h.running.2.1
    rw [CoversCaused, he'] at hcov
    have hcalm : Calm s := by
      refine ⟨?_, ?_, he'⟩
      · cases e : s.pins.front with
        | false => rfl
        | true => exact absurd (hcov.1 e) (by decide)
      · cases e : s.pins.top with
        | false => rfl
        | true => exact absurd (hcov.2 e) (by decide)
    unfold leaveHalt
    split
    · refine lawful_notify _ ⟨stores_modTracker _ h.stores, ⟨?_, h.running.2.1, fun _ => hcalm, fun _ => Or.inr rfl⟩,
        h.path, h.recovery⟩
      exact ⟨by simp [p3], by simp [p4], by simp [p1], by simp [p2]⟩
    · refine ⟨h.stores.of h.stores.link rfl rfl rfl, ⟨?_, h.running.2.1, fun _ => hcalm, by simp⟩, h.path, by simp⟩
      exact ⟨by simp [p3], by simp [p4], by simp [p1], by simp [p2]⟩
  · exact h

/-! ## Router decisions -/

theorem lawful_setRoute (i : Nat) (r : Route) (reason : Option DivertReason) (h : Lawful n s) :
    Lawful n (setRoute i r reason s) := lawful_modRec h i _ (fun _ => rfl)
@[simp] theorem base_assign (x : CompilerId) (k : SetKey) (s : State) : (assign x k s).base = s.base := by
  unfold assign; split <;> simp
@[simp] theorem stores_assign (x : CompilerId) (k : SetKey) (h : Stores n s) : Stores n (assign x k s) := by
  unfold assign; split
  · exact stores_afterSetChange (stores_modSet _ _ (stores_modComp _ _ h))
  · exact stores_modSet _ _ (stores_modComp _ _ h)
@[simp] theorem lawful_assign (x : CompilerId) (k : SetKey) (h : Lawful n s) : Lawful n (assign x k s) :=
  h.base (stores_assign x k h.stores) (base_assign x k s)
theorem lawful_takeNewSet (i tag : Nat) (k : SetKey) (lead : Tick) (x : CompilerId) (h : Lawful n s) :
    Lawful n (takeNewSet i tag k lead x s) := by
  have h' := lawful_modRouter (fun r => { r with lastTaker := x }) (lawful_assign x k (lawful_setRoute i (.to x) none h))
  simp only [takeNewSet]; split
  · exact lawful_notify _ h'
  · exact h'
theorem lawful_newSetChoice (i : Nat) (r : PathRec) (sh : Sheet) (h : Lawful n s) : Lawful n (newSetChoice i r sh s) := by
  unfold newSetChoice; split
  · exact lawful_takeNewSet _ _ _ _ _ h
  · exact lawful_drainTest _ (lawful_divertSet _ _ _ (lawful_setRoute _ _ _ h))
theorem lawful_routeDecision (i : Nat) (r : PathRec) (sh : Sheet) (h : Lawful n s) : Lawful n (routeDecision i r sh s) := by
  simp only [routeDecision]
  repeat' split
  all_goals first
    | exact lawful_purgeRouteTest (lawful_setRoute _ _ _ h)
    | exact lawful_purgeRouteTest (lawful_newSetChoice _ _ _ h)
    | exact lawful_setRoute _ _ _ h
    | exact lawful_newSetChoice _ _ _ h
theorem lawful_diverter (i : Nat) (r : PathRec) (h : Lawful n s) : Lawful n (diverter i r s) := by
  have h1 : Lawful n (reportOverrun (diverterReason s i r) r.sheet s) := by
    unfold reportOverrun; split
    · exact lawful_divertSet _ _ _ h
    · exact h
  simp only [diverter]
  split
  · exact lawful_purgeRouteTest (lawful_modRouter _ (lawful_setRoute _ _ _ h1))
  · exact lawful_modRouter _ h1
theorem lawful_afterDiverter (r : PathRec) (entered last : Bool) (h : Lawful n s) : Lawful n (afterDiverter r entered last s) := by
  simp only [afterDiverter]
  repeat' split
  all_goals simp (maxDischargeDepth := 12) [h]
theorem lawful_park (i : Nat) (h : Lawful n s) : Lawful n (park i s) :=
  lawful_modRouter _ (lawful_modRec h i _ (fun _ => rfl))

/-! ## Timers of the running transport -/

@[simp] theorem lawful_idleTest (h : Lawful n s) : Lawful n (idleTest s) := by
  unfold idleTest; split
  · rename_i hc
    simp only [Bool.and_eq_true, beq_iff_eq, List.isEmpty_iff] at hc
    obtain ⟨⟨c1, c2⟩, c3⟩ := hc
    obtain ⟨⟨r1, _, r3, r4⟩, r5, r6, r7⟩ := h.running
    exact ⟨stores_modTracker _ h.stores, ⟨⟨r1, fun _ => ⟨c1, c2, c3⟩, r3, r4⟩, r5, r6, r7⟩, h.path, h.recovery⟩
  · exact h
@[simp] theorem lawful_startWindow (h : Lawful n s) : Lawful n (startWindow s) := by
  unfold startWindow; split
  · exact h.of (h.stores.of h.stores.link rfl rfl rfl) rfl rfl rfl rfl rfl rfl rfl rfl
  · rename_i e es he
    exact h.of (h.stores.of h.stores.link rfl rfl rfl) rfl (by simp [he]) rfl rfl rfl rfl rfl rfl
@[simp] theorem lawful_setReading (x : Sensor) (v : Bool) (h : Lawful n s) : Lawful n (setReading x v s) :=
  h.of (stores_modTracker _ h.stores) rfl rfl rfl rfl rfl rfl rfl rfl

/-! ## S0 (R42 to R44) -/

theorem spot_newRec (tag : Nat) (kind : RecKind) (sh : Option Sheet) (route : Route) (reason : Option DivertReason) :
    (newRec s tag kind sh route reason).spot = (kind, none, sh.isSome) := rfl

/-- A record that holds no place joins the table in RUN when it has room (R42, R74). -/
theorem lawful_addStray (h : Lawful n s) (hrun : s.tracker.transport = .run)
    (hroom : s.tracker.path.length < Config.pathPlaces) (route : Route) (reason : Option DivertReason) :
    Lawful n (addRec (newRec s 0 .stray none route reason) s) := by
  obtain ⟨⟨r1, _, _, r4⟩, r5, r6, r7⟩ := h.running
  refine ⟨stores_modTracker _ h.stores, ⟨⟨r1, by simp [addRec], fun _ => hrun, r4⟩, r5, r6, r7⟩, ?_, h.recovery⟩
  have hp := (pathCapacity_iff s).1 h.path
  rw [pathCapacity_iff]
  obtain ⟨p1, p2, p3⟩ := hp
  simp only [addRec, modTracker_queue, modTracker_tracker, List.map_append, List.map_cons, List.map_nil, spot_newRec]
  refine ⟨?_, ?_, ?_⟩
  · rw [List.countP_append]; simpa [holdsPlace] using p1
  · simp; omega
  · intro x hx
    simp only [List.mem_append, List.mem_singleton] at hx
    rcases hx with hx | rfl
    · exact p3 x hx
    · simp

/-- The head leaves the queue and its record joins the table with the place held (R26, R42). -/
theorem lawful_matchRec (h : Lawful n s) (hrun : s.tracker.transport = .run)
    (hroom : s.tracker.path.length < Config.pathPlaces) {e : Entry} {es : List Entry} (hq : s.queue = e :: es) (tag : Nat)
    (kind : RecKind) (hk : kind = .tentative ∨ kind = .void) (sh : Option Sheet) (route : Route)
    (reason : Option DivertReason) : Lawful n (takeHead es (addRec (newRec s tag kind sh route reason) s)) := by
  obtain ⟨⟨r1, _, _, r4⟩, r5, r6, r7⟩ := h.running
  refine lawful_startWindow ?_
  refine ⟨h.stores.of h.stores.link rfl rfl rfl,
    ⟨⟨r1, by simp [addRec], fun _ => hrun, fun _ => Or.inl hrun⟩, r5, r6, r7⟩, ?_, h.recovery⟩
  have hp := (pathCapacity_iff s).1 h.path
  rw [pathCapacity_iff]
  obtain ⟨p1, p2, p3⟩ := hp
  simp only [addRec, modTracker_tracker, List.map_append, List.map_cons, List.map_nil, spot_newRec]
  have hh : holdsPlace (kind, none, sh.isSome) = true := by rcases hk with rfl | rfl <;> rfl
  rw [hq] at p1
  refine ⟨?_, ?_, ?_⟩
  · rw [List.countP_append]; simp [hh] at p1 ⊢; omega
  · simp; omega
  · intro x hx
    simp only [List.mem_append, List.mem_singleton] at hx
    rcases hx with hx | rfl
    · exact p3 x hx
    · intro _ _; exact hk

theorem lawful_strayAtLead (c : StrayCause) (h : Lawful n s) (hrun : s.tracker.transport = .run)
    (hroom : s.tracker.path.length < Config.pathPlaces) : Lawful n (strayAtLead c s) := by
  simp only [strayAtLead]
  exact lawful_purgeRouteTest (lawful_notify _ (lawful_addStray h hrun hroom _ _))
theorem lawful_s0LeadRun (h : Lawful n s) (hrun : s.tracker.transport = .run) : Lawful n (s0LeadRun s) := by
  unfold s0LeadRun
  split
  · exact lawful_jamAtSensor _ _ h
  · rename_i hroom
    have hroom : s.tracker.path.length < Config.pathPlaces := by omega
    split
    · exact lawful_strayAtLead _ h hrun hroom
    · split
      · exact lawful_strayAtLead _ h hrun hroom
      · rename_i e es hq
        unfold matchHead
        split
        · exact lawful_purgeRouteTest (lawful_matchRec h hrun hroom hq _ _ (Or.inr rfl) _ _ _)
        · exact lawful_matchRec h hrun hroom hq _ _ (Or.inl rfl) _ _ _
theorem lawful_leadAtRest (x : Sensor) (h : Lawful n s) : Lawful n (leadAtRest x s) := by
  unfold leadAtRest; split
  · exact h
  · exact lawful_jamAtSensor _ _ h
theorem lawful_leadAtS0 (h : Lawful n s) : Lawful n (leadAtS0 s) := by
  have h' := lawful_setReading .s0 true h
  simp only [leadAtS0]; split
  · rename_i hrun; exact lawful_s0LeadRun h' hrun
  · exact lawful_leadAtRest _ h'
theorem lawful_moveClearDl (i : Nat) (h : Lawful n s) : Lawful n (moveClearDl i s) := by
  unfold moveClearDl
  split
  · exact h
  · rename_i r _
    have h' : Lawful n (modRec i (fun q => { q with clearDl := movedClearDl s r }) s) :=
      lawful_modRec h i _ (fun _ => rfl)
    simp only
    split
    · exact h'
    · split
      · exact lawful_jamOfRecord _ _ _ _ h'
      · exact h'

end Sys2Proof.Machine
end

