-- ==== Sys2Proof/Laws/Tracking.lean ====
section
/-! SUPPORT. What the sensor events, the covers and the intake's operations keep (02, 04), said once for each operation. -/

namespace Sys2Proof.Machine

variable {n : Nat} {s : State}

/-! ## S0 clear (R44) -/

theorem countP_modify_cleared {α : Type} (p : α → Bool) (f : α → α) (hf : ∀ a, p (f a) = false) (l : List α) (i : Nat)
    {a : α} (hi : l[i]? = some a) : (l.modify i f).countP p + (if p a then 1 else 0) = l.countP p := by
  induction l generalizing i with
  | nil => simp at hi
  | cons b l ih =>
    cases i with
    | zero =>
      simp only [List.getElem?_cons_zero, Option.some.injEq] at hi
      subst hi
      simp [List.countP_cons, hf]
    | succ i =>
      simp only [List.getElem?_cons_succ] at hi
      have := ih i hi
      simp only [List.modify_succ_cons, List.countP_cons]
      omega

theorem mem_modify {α : Type} (f : α → α) (l : List α) (i : Nat) {b : α} (hb : b ∈ l.modify i f) :
    b ∈ l ∨ ∃ a, l[i]? = some a ∧ b = f a := by
  induction l generalizing i with
  | nil => cases i <;> simp at hb
  | cons a l ih =>
    cases i with
    | zero =>
      simp only [List.modify_zero_cons, List.mem_cons] at hb
      rcases hb with rfl | hb
      · exact Or.inr ⟨a, rfl, rfl⟩
      · exact Or.inl (List.mem_cons_of_mem _ hb)
    | succ i =>
      simp only [List.modify_succ_cons, List.mem_cons] at hb
      rcases hb with rfl | hb
      · exact Or.inl List.mem_cons_self
      · rcases ih i hb with h | ⟨c, hc, e⟩
        · exact Or.inl (List.mem_cons_of_mem _ h)
        · exact Or.inr ⟨c, by simpa using hc, e⟩

/-- The S0 clear time is recorded: the place held for the record is free (R26). -/
def stampS0 (now : Tick) (r : PathRec) : PathRec := { r with clear := { r.clear with s0 := some now } }

theorem placesHeld_stamp (now : Tick) (i : Nat) {r : PathRec} (hi : s.tracker.path[i]? = some r) :
    (modRec i (stampS0 now) s).placesHeld +
      (if (r.kind == .tentative || r.kind == .void) && r.clear.s0.isNone then 1 else 0) = s.placesHeld := by
  exact countP_modify_cleared (fun r : PathRec => (r.kind == .tentative || r.kind == .void) && r.clear.s0.isNone)
    (stampS0 now) (fun a => by simp [stampS0]) s.tracker.path i hi

theorem pathCapacity_stamp (now : Tick) (i : Nat) {r : PathRec} (hi : s.tracker.path[i]? = some r) (h : PathCapacity s) :
    PathCapacity (modRec i (stampS0 now) s) := by
  have e := placesHeld_stamp now i hi
  obtain ⟨h1, h2, h3⟩ := h
  refine ⟨?_, by simpa using h2, ?_⟩
  · have : (modRec i (stampS0 now) s).queue = s.queue := rfl
    rw [this]; omega
  · intro q hq hc hs
    rcases mem_modify _ _ _ hq with hq | ⟨a, _, rfl⟩
    · exact h3 q hq hc hs
    · simp [stampS0] at hc

theorem lawful_stamp (now : Tick) (i : Nat) {r : PathRec} (hi : s.tracker.path[i]? = some r) (h : Lawful n s) :
    Lawful n (modRec i (stampS0 now) s) := by
  obtain ⟨h1, ⟨⟨r1, r2, r3, r4⟩, r5, r6, r7⟩, h3, h4⟩ := h
  refine ⟨stores_modRec _ _ h1, ⟨⟨r1, ?_, ?_, r4⟩, r5, r6, r7⟩, pathCapacity_stamp now i hi h3, h4⟩
  · intro e
    obtain ⟨a, b, c⟩ := r2 e
    rw [c] at hi; simp at hi
  · intro _
    refine r3 ?_
    intro e; rw [e] at hi; simp at hi

theorem getElem?_modRec (i : Nat) (f : PathRec → PathRec) (s : State) :
    (modRec i f s).tracker.path[i]? = (s.tracker.path[i]?).map f := by
  simp

/-- A record whose S0 clear time is recorded may take any kind (R44). -/
theorem lawful_setKind (i : Nat) (f : PathRec → PathRec) (hf : ∀ r, (f r).clear.s0 = r.clear.s0)
    (hi : ∀ r, s.tracker.path[i]? = some r → r.clear.s0 ≠ none) (h : Lawful n s) : Lawful n (modRec i f s) := by
  obtain ⟨h1, ⟨⟨r1, r2, r3, r4⟩, r5, r6, r7⟩, ⟨c1, c2, c3⟩, h4⟩ := h
  have hnil : (modRec i f s).tracker.path = [] ↔ s.tracker.path = [] := by
    simp [← List.length_eq_zero_iff]
  refine ⟨stores_modRec _ _ h1, ⟨⟨r1, ?_, ?_, r4⟩, r5, r6, r7⟩, ⟨?_, by simpa using c2, ?_⟩, h4⟩
  · intro e; exact ⟨(r2 e).1, (r2 e).2.1, hnil.2 (r2 e).2.2⟩
  · intro e; exact r3 (fun e' => e (hnil.2 e'))
  · have e : (modRec i f s).placesHeld = s.placesHeld := by
      unfold State.placesHeld
      simp only [modRec_tracker]
      clear h1 r1 r2 r3 r4 r5 r6 r7 c1 c2 c3 h4 hnil
      revert hi
      generalize s.tracker.path = l
      induction l generalizing i with
      | nil => intro _; simp
      | cons a l ih =>
        intro hi
        cases i with
        | zero =>
          have ha := hi a (by simp)
          have hc : a.clear.s0.isNone = false := by
            cases e : a.clear.s0 with
            | none => exact absurd e ha
            | some _ => rfl
          simp [hf, hc]
        | succ i =>
          simp only [List.modify_succ_cons, List.countP_cons]
          rw [ih i (fun r hr => hi r (by simpa using hr))]
    rw [e]; exact c1
  · intro q hq hc hs
    rcases mem_modify _ _ _ hq with hq | ⟨a, ha, rfl⟩
    · exact c3 q hq hc hs
    · rw [hf] at hc; exact absurd hc (hi a ha)

theorem lawful_confirm (i : Nat) (r : PathRec) (sh : Sheet)
    (hi : ∀ q, s.tracker.path[i]? = some q → q.clear.s0 ≠ none) (h : Lawful n s) : Lawful n (confirm i r sh s) := by
  simp only [confirm]
  exact lawful_routeDecision _ _ _ (lawful_modSet _ _ (lawful_setKind i _ (fun _ => rfl) hi h))

/-- A demotion puts its entry back in the held place (R44). -/
theorem lawful_demote (i : Nat) (r : PathRec) (sh : Sheet) (m : Nat) {q : PathRec} (hq : s.tracker.path[i]? = some q)
    (hc : q.clear.s0 ≠ none) (hroom : s.queue.length + 1 + s.placesHeld ≤ Config.queuePlaces) (h : Lawful n s) :
    Lawful n (demote i r sh m s) := by
  have hne : s.tracker.path ≠ [] := by intro e; rw [e] at hq; simp at hq
  have h1 : Lawful n (modRec i (fun r =>
      { r with tag := 0, kind := .stray, sheet := none, route := .purge, reason := some .stray }) s) :=
    lawful_setKind i _ (fun _ => rfl) (fun q' hq' => by rw [hq] at hq'; cases hq'; exact hc) h
  have hrun := h.running.1.2.2.1 hne
  have hidle : s.tracker.idle = none := by
    cases e : s.tracker.idle with
    | none => rfl
    | some t => exact absurd (h.running.1.2.1 (by simp [e])).2.2 hne
  have hheld : (modRec i (fun r =>
      { r with tag := 0, kind := .stray, sheet := none, route := .purge, reason := some .stray }) s).placesHeld
        ≤ s.placesHeld := by
    have e := countP_modify_cleared
      (fun r : PathRec => (r.kind == .tentative || r.kind == .void) && r.clear.s0.isNone)
      (fun r : PathRec => { r with tag := 0, kind := .stray, sheet := none, route := .purge, reason := some .stray })
      (fun a => by simp) s.tracker.path i hq
    have e' : (modRec i (fun r : PathRec =>
      { r with tag := 0, kind := .stray, sheet := none, route := .purge, reason := some .stray }) s).placesHeld +
        (if (fun r : PathRec => (r.kind == .tentative || r.kind == .void) && r.clear.s0.isNone) q then 1 else 0)
        = s.placesHeld := e
    omega
  simp only [demote]
  refine lawful_purgeRouteTest (lawful_notify _ (lawful_startWindow ?_))
  obtain ⟨a1, ⟨⟨r1, r2, r3, r4⟩, r5, r6, r7⟩, ⟨c1, c2, c3⟩, a4⟩ := h1
  refine ⟨a1.of a1.link rfl rfl rfl, ⟨⟨r1, ?_, r3, fun _ => Or.inl hrun⟩, r5, r6, r7⟩, ⟨?_, c2, c3⟩, a4⟩
  · intro e
    have : s.tracker.idle.isSome = true := e
    simp [hidle] at this
  · show (restoredEntry r sh :: s.queue.map (fun e => { e with late := false })).length + _ ≤ _
    simp only [List.length_cons, List.length_map]
    have := hheld
    refine le_trans (Nat.add_le_add_left this _) hroom

theorem lawful_s0ClearRec (i : Nat) (r : PathRec) (hi : s.tracker.path[i]? = some r) (hc : r.clear.s0 = none)
    (h : Lawful n s) : Lawful n (s0ClearRec i r s) := by
  have h1 := lawful_stamp s.now i hi h
  have hi1 : (modRec i (stampS0 s.now) s).tracker.path[i]? = some (stampS0 s.now r) := by
    rw [getElem?_modRec, hi]; rfl
  show Lawful n (s0ClearRec i r s)
  unfold s0ClearRec
  show Lawful n (match r.sheet with | none => _ | some sh => _)
  split
  · exact lawful_moveClearDl _ h1
  · rename_i sh hsh
    have hk := h.path.2.2 r (List.mem_of_getElem? hi) hc (by simp [hsh])
    simp only
    split
    · split
      · refine lawful_paceTest (lawful_moveClearDl _ (lawful_confirm _ _ _ ?_ h1))
        intro q hq
        have : some (stampS0 s.now r) = some q := by rw [← hi1]; exact hq
        cases this
        simp [stampS0]
      · exact lawful_moveClearDl _ h1
    · refine lawful_moveClearDl _ (lawful_demote (q := stampS0 s.now r) i r sh _ hi1 (by simp [stampS0]) ?_ h1)
      have e := placesHeld_stamp s.now i hi
      have hb : ((r.kind == .tentative || r.kind == .void) && r.clear.s0.isNone) = true := by
        rcases hk with k | k <;> simp [k, hc]
      rw [if_pos hb] at e
      have hcap := h.path.1
      show s.queue.length + 1 + (modRec i (stampS0 s.now) s).placesHeld ≤ _
      omega

/-! ## Clear events (R78, R79) -/

theorem coveringRec_spec {x : Sensor} {i : Nat} (h : coveringRec s x = some i) :
    ∃ r, s.tracker.path[i]? = some r ∧ (r.clear.get x) = none := by
  unfold coveringRec at h
  rw [List.findIdx?_eq_some_iff_getElem] at h
  obtain ⟨hlt, hp, _⟩ := h
  refine ⟨s.tracker.path[i], List.getElem?_eq_getElem hlt, ?_⟩
  simp only [Bool.and_eq_true, Option.isNone_iff_eq_none] at hp
  exact hp.2

@[simp] theorem lawful_clearInHalt (h : Lawful n s) : Lawful n (clearInHalt s) := lawful_leaveTest (lawful_jamTest h)

theorem lawful_clearEvent (x : Sensor) (f : Nat → PathRec → State → State)
    (hf : ∀ (u : State) (i : Nat) (r : PathRec), Lawful n u → u.tracker.path[i]? = some r → r.clear.get x = none →
      u.tracker.transport = .run → Lawful n (f i r u)) (h : Lawful n s) : Lawful n (clearEvent x f s) := by
  have h' := lawful_setReading x false h
  simp only [clearEvent]
  split
  · rename_i hrun
    unfold clearInRun
    split
    · exact lawful_jamAtSensor _ _ h'
    · rename_i i hc
      obtain ⟨r, hr, hcl⟩ := coveringRec_spec hc
      rw [hr]
      exact hf _ i r h' hr hcl hrun
  · exact lawful_clearInHalt h'
  all_goals exact h'

/-! ## Lead events (R76) -/

theorem lawful_setDeadlines (i : Nat) (x : Sensor) (c : Bool) (h : Lawful n s) : Lawful n (setDeadlines i x c s) :=
  lawful_modRec h i _ (fun _ => rfl)
theorem lawful_leadAtS2 (i : Nat) (r : PathRec) (c : Bool) (h : Lawful n s) : Lawful n (leadAtS2 i r c s) := by
  simp only [leadAtS2]
  exact lawful_afterDiverter _ _ _ (lawful_setDeadlines _ _ _ (lawful_diverter _ _ h))
theorem lawful_leadAtS3 (i : Nat) (r : PathRec) (c : Bool) (h : Lawful n s) : Lawful n (leadAtS3 i r c s) := by
  simp only [leadAtS3]
  repeat' split
  · exact lawful_modRouter _ (lawful_setDeadlines _ _ _ h)
  · exact lawful_paceTest (lawful_releaseTest (lawful_park _ h))
  · exact lawful_releaseTest (lawful_park _ h)
theorem lawful_acceptLead (x : Sensor) (i : Nat) (r : PathRec) (h : Lawful n s) : Lawful n (acceptLead x i r s) := by
  have h' : Lawful n (modRec i (fun q => { q with lead := q.lead.set x (some s.now) }) s) := lawful_modRec h i _ (fun _ => rfl)
  simp only [acceptLead]
  split
  · exact lawful_leadAtS2 _ _ _ h'
  · exact lawful_leadAtS3 _ _ _ h'
  · exact lawful_setDeadlines _ _ _ h'
theorem lawful_leadOfRec (x : Sensor) (i : Nat) (r : PathRec) (h : Lawful n s) : Lawful n (leadOfRec x i r s) := by
  unfold leadOfRec
  repeat' split
  · exact lawful_jamOfRecord _ _ _ _ h
  · exact lawful_jamOfRecord _ _ _ _ h
  · exact lawful_acceptLead _ _ _ h
theorem lawful_leadAt (x : Sensor) (h : Lawful n s) : Lawful n (leadAt x s) := by
  have h' := lawful_setReading x true h
  simp only [leadAt]
  split
  · unfold leadInRun
    repeat' split
    · exact lawful_jamAtSensor _ _ h'
    · exact h'
    · exact lawful_leadOfRec _ _ _ h'
  · exact lawful_leadAtRest _ h'

/-! ## Exits (R75, R82) -/

theorem lawful_dropRec (i : Nat) (h : Lawful n s) : Lawful n (dropRec i s) := by
  obtain ⟨h1, ⟨⟨r1, r2, r3, r4⟩, r5, r6, r7⟩, ⟨c1, c2, c3⟩, h4⟩ := h
  refine ⟨stores_modTracker _ h1, ⟨⟨r1, ?_, ?_, r4⟩, r5, r6, r7⟩, ⟨?_, ?_, ?_⟩, h4⟩
  · intro e
    obtain ⟨a, b, c⟩ := r2 e
    exact ⟨a, b, by simp [dropRec, c]⟩
  · intro e
    refine r3 (fun e' => e ?_)
    simp [dropRec, e']
  · have : (dropRec i s).placesHeld ≤ s.placesHeld :=
      List.Sublist.countP_le (List.eraseIdx_sublist s.tracker.path i)
    have e : (dropRec i s).queue = s.queue := rfl
    rw [e]; omega
  · have : (dropRec i s).tracker.path.length ≤ s.tracker.path.length :=
      (List.eraseIdx_sublist s.tracker.path i).length_le
    omega
  · intro q hq
    exact c3 q ((List.eraseIdx_sublist s.tracker.path i).subset hq)
theorem lawful_countPurged (h : Lawful n s) : Lawful n (countPurged s) := by
  have h' : Lawful n (modTracker (fun t => { t with purgeCount := t.purgeCount + 1 }) s) :=
    h.of (stores_modTracker _ h.stores) rfl rfl rfl rfl rfl rfl rfl rfl
  simp only [countPurged]; split
  · exact lawful_paceTest (lawful_notify _ h')
  · exact h'
theorem lawful_drainFold (ks : List SetKey) (h : Lawful n s) : Lawful n (ks.foldl (fun s k => drainTest k s) s) := by
  induction ks generalizing s with
  | nil => exact h
  | cons k ks ih => exact ih (lawful_drainTest k h)
theorem lawful_exitPurge (i : Nat) (r : PathRec) (h : Lawful n s) : Lawful n (exitPurge i r s) := by
  have h1 := lawful_countPurged (lawful_dropRec i h)
  have h2 : ∀ u, Lawful n u → Lawful n (idleTest (match r.key with | none => drainTests u | some k => closeTestOf k (drainTests u))) := by
    intro u hu
    refine lawful_idleTest ?_
    split
    · exact lawful_drainFold _ hu
    · exact lawful_closeTestOf _ (lawful_drainFold _ hu)
  simp only [exitPurge]
  refine h2 _ ?_
  repeat' split
  · exact h1
  · exact lawful_removalTest _ (lawful_modSet _ _ h1)
  · exact h1
theorem lawful_exitLanding (x : CompilerId) (i : Nat) (r : PathRec) (h : Lawful n s) : Lawful n (exitLanding x i r s) := by
  have h1 := lawful_dropRec i h
  simp only [exitLanding]
  refine lawful_idleTest ?_
  split
  · exact h1
  · exact h1.base (stores_land _ _ _ h1.stores) (base_land _ _ _ _)
theorem lawful_clearOfRec (x : Sensor) (hx : x ≠ .s0) (i : Nat) (r : PathRec) (h : Lawful n s) :
    Lawful n (clearOfRec x i r s) := by
  have hm : ∀ v : Option Tick, Lawful n (modRec i (fun r => { r with clear := r.clear.set x v }) s) := by
    intro v
    refine lawful_modRec h i _ (fun r => ?_)
    cases x <;> first | exact absurd rfl hx | rfl
  unfold clearOfRec
  split
  · exact lawful_exitPurge _ _ h
  · exact lawful_exitLanding _ _ _ h
  · exact lawful_exitLanding _ _ _ h
  · exact lawful_moveClearDl _ (hm _)

/-! ## Covers (R69) -/

theorem lawful_openCover (c : Cover) (h : Lawful n s) : Lawful n (openCover c (modPins (Pins.setCover c true) s)) := by
  have hh : Lawful n (halt (coverCause c) none (.cover (coverName c) true) (modPins (Pins.setCover c true) s)) := by
    have hc := h.running.2.1
    refine lawful_halt ⟨stores_modPins _ h.stores, h.running.1, h.path, h.recovery⟩ ?_ ?_
    · intro e
      cases c
      · rfl
      · exact hc.1 e
    · intro e
      cases c
      · exact hc.2 e
      · rfl
  simp only [openCover]
  cases c
  · exact lawful_modComp _ _ (lawful_modComp _ _ hh)
  · exact hh

theorem lawful_emptyTray (h : Lawful n s) : Lawful n (emptyTray s) := by
  have h' : Lawful n (modTracker (fun t => { t with purgeCount := 0 }) s) :=
    h.of (stores_modTracker _ h.stores) rfl rfl rfl rfl rfl rfl rfl rfl
  simp only [emptyTray]; split
  · exact h'
  · exact lawful_paceTest h'

theorem lawful_closeCover (c : Cover) (h : Lawful n s) : Lawful n (closeCover c (modPins (Pins.setCover c false) s)) := by
  have h0 : Lawful n (notify (.cover (coverName c) false) (modPins (Pins.setCover c false) s)) := by
    refine lawful_notify _ ?_
    obtain ⟨h1, ⟨r1, r5, r6, r7⟩, h3, h4⟩ := h
    refine ⟨stores_modPins _ h1, ⟨r1, ?_, ?_, r7⟩, h3, h4⟩
    · cases c
      · exact ⟨by simp [modPins, Pins.setCover], r5.2⟩
      · exact ⟨r5.1, by simp [modPins, Pins.setCover]⟩
    · intro hne
      obtain ⟨a, b, d⟩ := r6 hne
      cases c
      · exact ⟨rfl, b, d⟩
      · exact ⟨a, rfl, d⟩
  have hpf : c = .front → (notify (.cover (coverName c) false) (modPins (Pins.setCover c false) s)).pins.front = false := by
    intro e
    rw [pins_of_base (base_notify _ _)]
    subst e; rfl
  have hpt : c = .top → (notify (.cover (coverName c) false) (modPins (Pins.setCover c false) s)).pins.top = false := by
    intro e
    rw [pins_of_base (base_notify _ _)]
    subst e; rfl
  simp only [closeCover]
  generalize notify (.cover (coverName c) false) (modPins (Pins.setCover c false) s) = u at *
  have h1 : Lawful n (modTracker (fun t => { t with causes := t.causes.closed c }) u) := by
    obtain ⟨a1, ⟨r1, r5, r6, r7⟩, h3, h4⟩ := h0
    refine ⟨stores_modTracker _ a1, ⟨r1, ?_, ?_, r7⟩, h3, h4⟩
    · cases c
      · exact ⟨fun e => absurd (show u.pins.front = true from e) (by simp [hpf rfl]), r5.2⟩
      · exact ⟨r5.1, fun e => absurd (show u.pins.top = true from e) (by simp [hpt rfl])⟩
    · intro hne
      obtain ⟨a, b, d⟩ := r6 hne
      refine ⟨a, b, ?_⟩
      show u.tracker.causes.closed c = {}
      rw [d]; cases c <;> rfl
  have h2 := lawful_jamTest h1
  refine lawful_leaveTest ?_
  cases c
  · exact h2.base (stores_resumeCompiler _ (stores_resumeCompiler _ h2.stores)) (by simp)
  · exact lawful_emptyTray h2

/-! ## The intake (R18, R31, R34, R40) -/

@[simp] theorem base_rollbackSet (es : List Entry) (k : SetKey) (s : State) : (rollbackSet es k s).base = s.base := by
  simp only [rollbackSet]; split <;> simp
@[simp] theorem stores_rollbackSet (es : List Entry) (k : SetKey) (h : Stores n s) : Stores n (rollbackSet es k s) := by
  simp only [rollbackSet]; split
  · exact stores_dropSet _ (stores_modSet _ _ h)
  · exact stores_drainTest _ (stores_modSet _ _ h)
theorem base_rollback (es : List Entry) (s : State) : (rollback es s).base = s.base := by
  unfold rollback
  simp only
  generalize entrySets (es.filter fun e => !e.void) = ks
  generalize (es.filter fun e => !e.void) = live
  induction ks generalizing s with
  | nil => rfl
  | cons k ks ih => simp [ih]
theorem stores_rollback (es : List Entry) (h : Stores n s) : Stores n (rollback es s) := by
  unfold rollback
  simp only
  generalize entrySets (es.filter fun e => !e.void) = ks
  generalize (es.filter fun e => !e.void) = live
  induction ks generalizing s with
  | nil => exact h
  | cons k ks ih => exact ih (stores_rollbackSet _ _ h)

theorem lawful_removeFrom (i : Nat) (h : Lawful n s) : Lawful n (removeFrom i s) := by
  have h0 : Lawful n { s with queue := s.queue.take i, window := if i = 0 then none else s.window } := by
    obtain ⟨h1, ⟨⟨r1, r2, r3, r4⟩, r5, r6, r7⟩, ⟨c1, c2, c3⟩, h4⟩ := h
    refine ⟨h1.of h1.link rfl rfl rfl, ⟨⟨r1, ?_, r3, ?_⟩, r5, r6, r7⟩, ⟨?_, c2, c3⟩, h4⟩
    · intro e
      obtain ⟨a, b, c⟩ := r2 e
      exact ⟨a, by simp [b], c⟩
    · intro e
      exact r4 (fun e' => e (by simp [e']))
    · show (s.queue.take i).length + s.placesHeld ≤ _
      have : (s.queue.take i).length ≤ s.queue.length := by simp
      omega
  have h1 := h0.base (stores_rollback (s.queue.drop i) h0.stores) (base_rollback (s.queue.drop i) _)
  simp only [removeFrom]
  refine lawful_idleTest ?_
  exact h1.of (h1.stores.of h1.stores.link rfl rfl rfl) rfl rfl rfl rfl rfl rfl rfl rfl

@[simp] theorem base_announceSet (sh : Sheet) (s : State) : (announceSet sh s).base = s.base := by
  simp only [announceSet]; repeat' split
  all_goals rfl
@[simp] theorem stores_announceSet (sh : Sheet) (h : Stores n s) : Stores n (announceSet sh s) := by
  simp only [announceSet]; repeat' split
  · exact stores_modSet _ _ h
  · exact h
  · exact h.of h.link rfl (by simp) rfl

theorem lawful_raise (i v a : Nat) (h : Lawful n s) : Lawful n (raise i v a s) := by
  simp only [raise]
  exact lawful_notify _ (h.of (h.stores.of h.stores.link rfl rfl rfl) rfl rfl rfl rfl rfl rfl rfl rfl)
theorem lawful_purgeCapacityTest (w : Bool) (h : Lawful n s) : Lawful n (purgeCapacityTest w s) := by
  simp only [purgeCapacityTest]; repeat' split
  · exact h
  · exact lawful_paceTest h
  · exact lawful_paceTest (lawful_notify _ h)
theorem lawful_fixZ2 (h : Lawful n s) : Lawful n (fixZ2 s) := by
  unfold fixZ2; split
  · exact lawful_raise _ _ _ h
  · exact h
theorem lawful_fixZ4 (h : Lawful n s) : Lawful n (fixZ4 s) := by
  unfold fixZ4; split
  · exact lawful_raise _ _ _ h
  · exact h
theorem lawful_fixTJam (h : Lawful n s) : Lawful n (fixTJam s) := by
  unfold fixTJam; split
  · exact lawful_raise _ _ _ h
  · exact h
/-- Values alone change none of what the laws read. -/
theorem lawful_latched (l : Latched) (h : Lawful n s) : Lawful n { s with latched := l } :=
  h.of (h.stores.of h.stores.link rfl rfl rfl) rfl rfl rfl rfl rfl rfl rfl rfl
theorem lawful_travels (v : List Nat) (h : Lawful n s) : Lawful n (modTracker (fun t => { t with travels := v }) s) :=
  h.of (stores_modTracker _ h.stores) rfl rfl rfl rfl rfl rfl rfl rfl
theorem lawful_latchPathMedia (h : Lawful n s) : Lawful n (latchPathMedia s) := by
  simp only [latchPathMedia]
  exact lawful_purgeCapacityTest _ (lawful_travels _ (lawful_fixTJam (lawful_fixZ4 (lawful_fixZ2 (lawful_latched _ h)))))

/-! ## What the PATH and MEDIA latch leaves alone (R173) -/

/-- Two states agree on the transport, the causes, the timers, the records and the queue. -/
def SameTransport (s t : State) : Prop :=
  t.tracker = { s.tracker with path := t.tracker.path, travels := t.tracker.travels } ∧
    t.tracker.path.map PathRec.still = s.tracker.path.map PathRec.still ∧ t.queue = s.queue ∧ t.pins = s.pins ∧
    t.recovery = s.recovery ∧ t.loading = s.loading

theorem SameTransport.trans {s t u : State} (h : SameTransport s t) (h' : SameTransport t u) : SameTransport s u := by
  obtain ⟨a1, a2, a3, a4, a5, a6⟩ := h
  obtain ⟨b1, b2, b3, b4, b5, b6⟩ := h'
  refine ⟨?_, b2.trans a2, b3.trans a3, b4.trans a4, b5.trans a5, b6.trans a6⟩
  rw [b1, a1]

theorem sameTransport_of_base {s t : State} (h : t.base = s.base) : SameTransport s t := by
  refine ⟨?_, still_of_base h, queue_of_base h, pins_of_base h, recovery_of_base h, loading_of_base h⟩
  have e := congrArg State.tracker h
  have e' : { t.tracker with path := t.tracker.path.map PathRec.still } =
      { s.tracker with path := s.tracker.path.map PathRec.still } := e
  generalize t.tracker = a at e' ⊢
  generalize s.tracker = b at e' ⊢
  cases a; cases b
  simp only [Tracker.mk.injEq] at e' ⊢
  simp_all

theorem sameTransport_raise (i v a : Nat) (s : State) : SameTransport s (raise i v a s) := by
  simp only [raise]
  refine SameTransport.trans ?_ (sameTransport_of_base (base_notify _ _))
  exact ⟨rfl, rfl, rfl, rfl, rfl, rfl⟩
theorem sameTransport_fixZ2 (s : State) : SameTransport s (fixZ2 s) := by
  unfold fixZ2; split
  · exact sameTransport_raise _ _ _ _
  · exact sameTransport_of_base rfl
theorem sameTransport_fixZ4 (s : State) : SameTransport s (fixZ4 s) := by
  unfold fixZ4; split
  · exact sameTransport_raise _ _ _ _
  · exact sameTransport_of_base rfl
theorem sameTransport_fixTJam (s : State) : SameTransport s (fixTJam s) := by
  unfold fixTJam; split
  · exact sameTransport_raise _ _ _ _
  · exact sameTransport_of_base rfl
theorem base_purgeCapacityTest (w : Bool) (s : State) : (purgeCapacityTest w s).base = s.base := by
  unfold purgeCapacityTest; repeat' split
  all_goals simp
theorem sameTransport_latched (l : Latched) (s : State) : SameTransport s { s with latched := l } :=
  ⟨rfl, rfl, rfl, rfl, rfl, rfl⟩
theorem sameTransport_travels (v : List Nat) (s : State) :
    SameTransport s (modTracker (fun t => { t with travels := v }) s) := ⟨rfl, rfl, rfl, rfl, rfl, rfl⟩
theorem sameTransport_latchPathMedia (s : State) : SameTransport s (latchPathMedia s) := by
  simp only [latchPathMedia]
  exact (((((sameTransport_latched _ s).trans (sameTransport_fixZ2 _)).trans (sameTransport_fixZ4 _)).trans
    (sameTransport_fixTJam _)).trans (sameTransport_travels _ _)).trans (sameTransport_of_base (base_purgeCapacityTest _ _))

end Sys2Proof.Machine
end

