-- ==== Sys2Proof/Laws/Requests.lean ====
section
/-! SUPPORT. What the owners of the requests keep (01, 02, 06 to 10), and what the Link Controller keeps around them (R160 to
R162), said once for each. -/

namespace Sys2Proof.Machine

variable {n : Nat} {s : State}

/-- A state that agrees on the transport, the causes, the timers, the records and the queue keeps the laws. -/
theorem Lawful.same {s t : State} (h : Lawful n s) (hs : Stores n t) (e : SameTransport s t) : Lawful n t := by
  obtain ⟨e1, e2, e3, e4, e5, _⟩ := e
  refine h.of hs e4 (by rw [e3]) ?_ ?_ ?_ ?_ (spot_of_still e2) e5 <;> rw [e1]

/-! ## Announce (R28, R31) -/

theorem or_eq_none {α : Type} {a b : Option α} (h : a.or b = none) : a = none ∧ b = none := by
  cases a <;> simp_all

/-- An Announce that passes finds a place in the queue, and the transport in none of HALT and RECOVER (steps 6 and 8 of
R28). -/
theorem announceRefusal_none {tag : Nat} {sh : Sheet} {rep : Bool} (h : announceRefusal s tag sh rep = none) :
    s.queue.length + s.placesHeld < Config.queuePlaces ∧ s.halted = false := by
  unfold announceRefusal at h
  have h := (or_eq_none h).2
  have h := (or_eq_none h).2
  have h := (or_eq_none h).2
  have h := (or_eq_none h).2
  have h := (or_eq_none h).2
  have h6 := (or_eq_none h).1
  have h := (or_eq_none h).2
  have h := (or_eq_none h).2
  have h8 := (or_eq_none h).1
  constructor
  · by_contra hc
    rw [if_pos (by omega)] at h6
    exact absurd h6 (by simp)
  · cases e : s.halted with
    | false => rfl
    | true => rw [e] at h8; exact absurd h8 (by decide)

theorem placesHeld_of_path {s t : State} (h : t.tracker.path = s.tracker.path) : t.placesHeld = s.placesHeld := by
  unfold State.placesHeld; rw [h]

theorem lawful_acceptAnnounce (tag : Nat) (sh : Sheet) (rep : Bool)
    (hroom : s.queue.length + s.placesHeld < Config.queuePlaces) (hh : s.halted = false) (h : Lawful n s) :
    Lawful n (acceptAnnounce tag sh rep s) := by
  have h0 : Lawful n (announceSet sh s) := h.base (stores_announceSet _ h.stores) (base_announceSet _ _)
  have hb := base_announceSet sh s
  have hroom' : (announceSet sh s).queue.length + (announceSet sh s).placesHeld < Config.queuePlaces := by
    have e : (announceSet sh s).placesHeld = s.placesHeld := by
      rw [placesHeld_eq, placesHeld_eq, spot_of_still (still_of_base hb)]
    rw [queue_of_base hb, e]; exact hroom
  have hh' : (announceSet sh s).halted = false := by
    unfold State.halted at hh ⊢
    rw [transport_of_base hb]; exact hh
  simp only [acceptAnnounce]
  generalize announceSet sh s = u at *
  have ht : u.tracker.transport ≠ .halt ∧ u.tracker.transport ≠ .recover := by
    simp only [State.halted, Bool.or_eq_false_iff, beq_eq_false_iff_ne] at hh'
    exact hh'
  obtain ⟨h1, ⟨⟨r1, r2, r3, r4⟩, r5, r6, r7⟩, ⟨c1, c2, c3⟩, h4⟩ := h0
  have hcalm := r6 ht.1
  have hnorec : u.recovery.isSome = true → False := fun e => by
    rcases r7 e with e' | e'
    · exact ht.1 e'
    · exact ht.2 e'
  have hlen : (u.queue ++ [({ tag := tag, sheet := sh, reprint := rep, void := false, late := false } : Entry)]).length =
      u.queue.length + 1 := by simp
  -- a state with the entry appended, once the transport is SPINUP or RUN
  have key : ∀ v : State, v.queue.length = u.queue.length + 1 → v.tracker.path = u.tracker.path →
      v.tracker.idle = none → v.tracker.spinup = u.tracker.spinup → v.tracker.causes = u.tracker.causes →
      v.pins = u.pins → v.recovery = u.recovery → v.link = u.link → v.runs = u.runs → v.sets = u.sets → v.bins = u.bins →
      (v.tracker.transport = u.tracker.transport ∧ u.tracker.transport ≠ .off ∨
        v.tracker.transport = .spinup ∧ u.tracker.transport = .off) → Lawful n v := by
    intro v q1 q2 q3 q4 q5 q6 q7 q8 q9 q10 q11 q12
    refine ⟨⟨by rw [q8]; exact h1.link, by rw [q9]; exact h1.runs, by rw [q10]; exact h1.sets,
      by unfold BinLaw; rw [q11]; exact h1.bins⟩, ⟨⟨?_, ?_, ?_, ?_⟩, ?_, ?_, ?_⟩, ⟨?_, ?_, ?_⟩, by rw [q7]; exact h4⟩
    · rw [q4]; intro e
      rcases q12 with ⟨e', _⟩ | ⟨e', _⟩
      · rw [e']; exact r1 e
      · exact e'
    · rw [q3]; simp
    · rw [q2]; intro e
      rcases q12 with ⟨e', _⟩ | ⟨_, e'⟩
      · rw [e']; exact r3 e
      · exact absurd (r3 e) (by rw [e']; decide)
    · intro _
      rcases q12 with ⟨e', e''⟩ | ⟨e', _⟩
      · rw [e']
        cases hk : u.tracker.transport with
        | off => exact absurd hk e''
        | spinup => exact Or.inr rfl
        | run => exact Or.inl rfl
        | halt => exact absurd hk ht.1
        | recover => exact absurd hk ht.2
      · exact Or.inr e'
    · unfold CoversCaused; rw [q6, q5]; exact r5
    · intro _; unfold Calm; rw [q6, q5]; exact hcalm
    · rw [q7]; intro e; exact absurd e (fun e => hnorec e)
    · rw [placesHeld_of_path q2, q1]; omega
    · rw [q2]; exact c2
    · rw [q2]; exact c3
  split
  · rename_i hrun
    split
    · exact lawful_startWindow
        (key _ hlen rfl rfl rfl rfl rfl rfl rfl rfl rfl rfl
          (Or.inl ⟨rfl, fun e => by have : u.tracker.transport = .run := hrun; rw [this] at e; exact absurd e (by decide)⟩))
    · exact key _ hlen rfl rfl rfl rfl rfl rfl rfl rfl rfl rfl
          (Or.inl ⟨rfl, fun e => by have : u.tracker.transport = .run := hrun; rw [this] at e; exact absurd e (by decide)⟩)
  · rename_i hoff
    have hoff : u.tracker.transport = .off := hoff
    unfold startSpinup
    have hv := key (modTracker (fun t => { t with transport := .spinup }) (modTracker (fun t => { t with idle := none })
      { u with queue := u.queue ++ [({ tag := tag, sheet := sh, reprint := rep, void := false, late := false } : Entry)] }))
      hlen rfl rfl rfl rfl rfl rfl rfl rfl rfl rfl (Or.inr ⟨rfl, hoff⟩)
    have hs := sameTransport_latchPathMedia (modTracker (fun t => { t with transport := .spinup }) (modTracker
      (fun t => { t with idle := none })
      { u with queue := u.queue ++ [({ tag := tag, sheet := sh, reprint := rep, void := false, late := false } : Entry)] }))
    have hw := lawful_latchPathMedia hv
    simp only
    generalize latchPathMedia _ = w at *
    have hsp : w.tracker.transport = .spinup := by rw [hs.1]; rfl
    obtain ⟨b1, ⟨⟨t1, t2, t3, t4⟩, t5, t6, t7⟩, b3, b4⟩ := hw
    exact ⟨stores_modTracker _ b1, ⟨⟨fun _ => hsp, t2, t3, t4⟩, t5, t6, t7⟩, b3, b4⟩
  · rename_i hsp
    exact key _ hlen rfl rfl rfl rfl rfl rfl rfl rfl rfl rfl
      (Or.inl ⟨rfl, fun e => by have : u.tracker.transport = .spinup := hsp; rw [this] at e; exact absurd e (by decide)⟩)
  · rename_i hha; exact absurd hha ht.1
  · rename_i hre; exact absurd hre ht.2

/-! ## Aborts (R4, R15) -/

theorem spot_voidRec (k : SetKey) (r : PathRec) : holdsPlace (voidRec k r).spot = holdsPlace r.spot ∧
    (voidRec k r).clear = r.clear ∧ (voidRec k r).sheet = r.sheet ∧
    ((r.kind = .tentative ∨ r.kind = .void) → ((voidRec k r).kind = .tentative ∨ (voidRec k r).kind = .void)) := by
  unfold voidRec
  split
  · rename_i hc
    exact ⟨by simp [PathRec.spot, holdsPlace, hc.1], rfl, rfl, fun _ => Or.inr rfl⟩
  · exact ⟨rfl, rfl, rfl, id⟩

theorem lawful_abortRecord (k : SetKey) (h : Lawful n s) : Lawful n (abortRecord k s) := by
  have h1 := lawful_modSet k (fun q => { q with aborted := true, state := abortedState q.state }) h
  simp only [abortRecord]
  generalize modSet k _ s = u at *
  refine lawful_closeTestOf _ (lawful_drainTest _ (lawful_removalTest _ ?_))
  obtain ⟨b1, ⟨⟨r1, r2, r3, r4⟩, r5, r6, r7⟩, ⟨c1, c2, c3⟩, b4⟩ := h1
  refine ⟨b1.of b1.link rfl rfl rfl, ⟨⟨r1, ?_, ?_, ?_⟩, r5, r6, r7⟩, ⟨?_, ?_, ?_⟩, b4⟩
  · intro e
    obtain ⟨a, b, c⟩ := r2 e
    exact ⟨a, by simp [b], by simp [c]⟩
  · intro e
    refine r3 (fun e' => e ?_)
    simp [e']
  · intro e
    refine r4 (fun e' => e ?_)
    simp [e']
  · have e : (modTracker (fun t => { t with path := t.path.map (voidRec k) })
        { u with queue := u.queue.map (fun e => if e.sheet.key = k then { e with void := true } else e) }).placesHeld
        = u.placesHeld := by
      unfold State.placesHeld
      simp only [modTracker_tracker, List.countP_map]
      refine List.countP_congr (fun r _ => ?_)
      have := (spot_voidRec k r).1
      simp only [holdsPlace, PathRec.spot] at this
      simp only [Function.comp, this]
    rw [e]
    simpa using c1
  · simpa using c2
  · intro q hq hc hs
    simp only [modTracker_tracker, List.mem_map] at hq
    obtain ⟨r, hr, rfl⟩ := hq
    obtain ⟨_, e2, e3, e4⟩ := spot_voidRec k r
    rw [e2] at hc; rw [e3] at hs
    exact e4 (c3 r hr hc hs)

theorem lawful_abortFold (ks : List SetKey) (h : Lawful n s) : Lawful n (ks.foldl (fun s k => abortRecord k s) s) := by
  induction ks generalizing s with
  | nil => exact h
  | cons k ks ih => exact ih (lawful_abortRecord k h)
theorem lawful_finishChecks (r : Fin 16) (h : Lawful n s) : Lawful n (finishChecks r s) :=
  h.base (stores_finishChecks r h.stores) (base_finishChecks r s)
theorem lawful_modRun (r : Fin 16) (f : Run → Run) (h : Lawful n s) : Lawful n (modRun r f s) :=
  h.base (stores_modRun r f h.stores) rfl
theorem lawful_abortRunNow (r : Fin 16) (h : Lawful n s) : Lawful n (abortRunNow r s) := by
  simp only [abortRunNow]
  exact lawful_finishChecks _ (lawful_abortFold _ (lawful_modRun _ _ h))
theorem lawful_abortSetNow (k : SetKey) (h : Lawful n s) : Lawful n (abortSetNow k s).1 := by
  unfold abortSetNow
  split
  · exact h.base (stores_countFinished _ _ h.stores) (base_countFinished _ _ _)
  · exact lawful_abortRecord _ h

/-! ## The owners -/

theorem lawful_ownOpenRun (p : List Byte) (h : Lawful n s) : Lawful n (ownOpenRun p s).1 := by
  unfold ownOpenRun
  split
  · exact h
  · rename_i r run _
    split
    · exact h
    · have h1 : Lawful n (setRun r (some run) s) := h.base (stores_setRun _ _ h.stores) rfl
      simp only [openClaim]
      split
      · exact h1
      · rename_i b hb
        have hfree : ((setRun r (some run) s).getBin b).state = .free := by
          unfold firstBin at hb
          have := List.find?_some hb
          simp only [Bool.and_eq_true, beq_iff_eq] at this
          exact this.2
        exact h1.base (stores_targetEvent (stores_claim _ _ h1.stores hfree)) (by simp)
theorem lawful_ownAbortRun (p : List Byte) (h : Lawful n s) : Lawful n (ownAbortRun p s).1 := by
  unfold ownAbortRun
  repeat' split
  all_goals first
    | exact h
    | exact lawful_abortRunNow _ h
theorem lawful_ownAbortSet (p : List Byte) (h : Lawful n s) : Lawful n (ownAbortSet p s).1 := by
  unfold ownAbortSet
  simp only
  repeat' split
  all_goals first
    | exact h
    | exact lawful_abortSetNow _ h
theorem lawful_ownAnnounce (p : List Byte) (h : Lawful n s) : Lawful n (ownAnnounce p s).1 := by
  unfold ownAnnounce
  split
  · exact h
  · split
    · exact h
    · rename_i he
      obtain ⟨a, b⟩ := announceRefusal_none he
      exact lawful_acceptAnnounce _ _ _ a b h
theorem lawful_ownWithdraw (p : List Byte) (h : Lawful n s) : Lawful n (ownWithdraw p s).1 := by
  unfold ownWithdraw
  simp only
  repeat' split
  all_goals first
    | exact h
    | exact lawful_removeFrom _ h
theorem lawful_ownResume (p : List Byte) (h : Lawful n s) : Lawful n (ownResume p s).1 := by
  unfold ownResume
  split
  · rename_i hr
    obtain ⟨b1, ⟨⟨r1, r2, r3, r4⟩, r5, r6, r7⟩, c, b4⟩ := h
    rw [hr] at r1 r2 r3 r4
    refine ⟨b1.of b1.link rfl rfl rfl, ⟨⟨?_, ?_, ?_, ?_⟩, r5, fun _ => r6 (by rw [hr]; decide), by simp⟩, c, by simp⟩
    · intro e; exact absurd (r1 e) (by decide)
    · intro e; exact absurd (r2 e).1 (by decide)
    · intro e; exact absurd (r3 e) (by decide)
    · intro e; rcases r4 e with e' | e' <;> exact absurd e' (by decide)
  all_goals exact h
theorem lawful_ownRecoveryQuery (p : List Byte) (h : Lawful n s) : Lawful n (ownRecoveryQuery p s).1 := by
  unfold ownRecoveryQuery
  simp only
  repeat' split
  all_goals exact h
theorem lawful_ownReadTable (p : List Byte) (h : Lawful n s) : Lawful n (ownReadTable p s).1 := by
  unfold ownReadTable
  simp only
  repeat' split
  all_goals exact h
/-- A change of the Link Controller that leaves its queues alone keeps every law. -/
theorem lawful_modLink (f : Link → Link) (h : Lawful n s) (hr : (f s.link).replies = s.link.replies)
    (hn : (f s.link).notices = s.link.notices) : Lawful n (modLink f s) :=
  h.base (stores_modLink f h.stores (by obtain ⟨⟨a, b⟩, _⟩ := h.stores; exact ⟨by rw [hr]; exact a, by rw [hn]; exact b⟩)) rfl
theorem lawful_ownStatus (p : List Byte) (h : Lawful n s) : Lawful n (ownStatus p s).1 := by
  unfold ownStatus
  exact lawful_modLink (fun l => { l with lost := false }) h rfl rfl

theorem lawful_staged (t : Staged) (h : Lawful n s) : Lawful n { s with staged := t } :=
  h.of (h.stores.of h.stores.link rfl rfl rfl) rfl rfl rfl rfl rfl rfl rfl rfl
theorem lawful_latchStaged (g : Group) (h : Lawful n s) : Lawful n (latchStaged g s) := by
  unfold latchStaged
  split
  · exact lawful_latched _ h
  · split
    · exact h.base (stores_deliveryLatch h.stores) (base_deliveryLatch s)
    · exact h
  all_goals exact h
theorem lawful_ownSetParameter (p : List Byte) (h : Lawful n s) : Lawful n (ownSetParameter p s).1 := by
  unfold ownSetParameter
  simp only
  repeat' split
  all_goals first
    | exact h
    | exact lawful_latchStaged _ (lawful_staged _ h)
theorem lawful_ownGetParameter (p : List Byte) (h : Lawful n s) : Lawful n (ownGetParameter p s).1 := by
  unfold ownGetParameter
  split <;> exact h
theorem lawful_ownNoticeMask (p : List Byte) (h : Lawful n s) : Lawful n (ownNoticeMask p s).1 := by
  unfold ownNoticeMask
  simp only
  split
  · exact h
  · exact lawful_latched _ (lawful_staged _ h)
theorem lawful_ownBinService (p : List Byte) (h : Lawful n s) : Lawful n (ownBinService p s).1 := by
  unfold ownBinService
  simp only
  repeat' split
  all_goals first
    | exact h
    | exact h.base (stores_serveBins _ _ h.stores) (base_serveBins _ _ _)
theorem lawful_compilerOut (x : CompilerId) (h : Lawful n s) : Lawful n (compilerOut x s) := by
  unfold compilerOut
  split
  · exact lawful_paceTest (lawful_modComp _ _ h)
  · exact h
  · exact lawful_modComp _ _ h
theorem lawful_compileLatch (x : CompilerId) (h : Lawful n s) : Lawful n (compileLatch x s) :=
  h.base (stores_compileLatch x h.stores) (base_compileLatch x s)
theorem lawful_compilerIn (x : CompilerId) (h : Lawful n s) : Lawful n (compilerIn x s) := by
  unfold compilerIn
  split
  · simp only
    split
    · exact lawful_paceTest (lawful_modComp _ _ h)
    · exact lawful_paceTest (lawful_compileLatch _ (lawful_modComp _ _ h))
  · exact lawful_modComp _ _ h
theorem lawful_ownCompilerService (p : List Byte) (h : Lawful n s) : Lawful n (ownCompilerService p s).1 := by
  unfold ownCompilerService
  split
  · rename_i a _ _
    cases a
    · exact lawful_compilerOut _ h
    · exact lawful_compilerIn _ h
  · exact h

/-! ## Restart PATH (R178) -/

theorem lawful_loadGroups (gs : List Group) (h : Lawful n s) : Lawful n (loadGroups gs s) := by
  unfold loadGroups
  induction gs generalizing s with
  | nil => exact h
  | cons g gs ih =>
    refine ih ?_
    exact h.of (h.stores.of h.stores.link rfl rfl rfl) rfl rfl rfl rfl rfl rfl rfl rfl
theorem lawful_profileFaultNotice (gs : List Group) (h : Lawful n s) : Lawful n (profileFaultNotice gs s) := by
  unfold profileFaultNotice; split
  · exact lawful_notify _ h
  · exact h
theorem lawful_restartPathNow (h : Lawful n s) : Lawful n (restartPathNow s) := by
  simp only [restartPathNow]
  exact lawful_latchPathMedia (lawful_profileFaultNotice _ (lawful_loadGroups _ h))
theorem lawful_restartPath (h : Lawful n s) : Lawful n (restartPath s).1 := by
  have h1 := lawful_restartPathNow h
  unfold restartPath
  split
  · simp only; exact h1
  · exact h
theorem lawful_restartFull (h : Lawful n s) : Lawful n (restartFull s).1 := by
  unfold restartFull
  exact lawful_modLink (fun l => { l with restartWait := true }) h rfl rfl
theorem lawful_ownRestart (p : List Byte) (h : Lawful n s) : Lawful n (ownRestart p s).1 := by
  unfold ownRestart
  split
  · exact h
  · exact lawful_restartFull h
  · exact lawful_restartPath h

/-! ## Requests and the receiver (R160 to R162) -/

theorem Stores.mono {m : Nat} (h : Stores n s) (hm : n ≤ m) : Stores m s :=
  ⟨⟨le_trans h.link.1 hm, h.link.2⟩, h.runs, h.sets, h.bins⟩
theorem Lawful.mono {m : Nat} (h : Lawful n s) (hm : n ≤ m) : Lawful m s :=
  ⟨h.stores.mono hm, h.running, h.path, h.recovery⟩
theorem Lawful.within (h : Lawful n s) {m : Nat} (hm : s.link.replies.length ≤ m) : Lawful m s :=
  ⟨⟨⟨hm, h.stores.link.2⟩, h.stores.runs, h.stores.sets, h.stores.bins⟩, h.running, h.path, h.recovery⟩

theorem lawful_reply (kind seq : Byte) (a : Answer) (h : Lawful n s) : Lawful (n + 1) (reply kind seq a s) :=
  ⟨stores_modLink _ h.stores (linkWithin_queueReply _ h.stores.link), h.running, h.path, h.recovery⟩
theorem lawful_rx (rx : Receiver) (h : Lawful n s) : Lawful n (modLink (fun l => { l with rx := rx }) s) :=
  h.base (stores_modLink _ h.stores h.stores.link) rfl

/-- A request whose owner keeps the laws keeps them, reply and all (R161, R162). -/
theorem lawful_takeComplete (kind seq : Byte) (f : State → State × Answer)
    (hf : ∀ u, Lawful 3 u → Lawful 3 (f u).1) (h : Lawful 4 s) : Lawful 4 (takeComplete kind seq f s) := by
  have h1 := lawful_rx Receiver.hunting h
  simp only [takeComplete]
  split
  · exact h1
  · split
    · exact lawful_notify _ h1
    · rename_i hlt
      have h3 : Lawful 3 (modLink (fun l => { l with rx := Receiver.hunting }) s) := by
        refine h1.within ?_
        have : ¬ 4 ≤ s.link.replies.length := hlt
        show s.link.replies.length ≤ 3
        omega
      split
      · exact lawful_reply _ _ _ h3
      · exact lawful_reply _ _ _ (hf _ h3)
theorem lawful_takeRequest (kind len : Nat) (own : Owner) (hown : ∀ p u, Lawful 3 u → Lawful 3 (own p u).1) (seq : Byte)
    (p : List Byte) (h : Lawful 4 s) : Lawful 4 (takeRequest kind len own seq p s) := by
  refine lawful_takeComplete _ _ _ (fun u hu => ?_) h
  unfold checkLength; split
  · exact hown _ _ hu
  · exact hu
theorem lawful_takeFrame (kind seq : Byte) (p : List Byte) (h : Lawful 4 s) : Lawful 4 (takeFrame kind seq p s) := by
  unfold takeFrame
  split
  · exact lawful_takeRequest _ _ _ (fun _ _ => lawful_ownOpenRun _) _ _ h
  · exact lawful_takeRequest _ _ _ (fun _ _ => lawful_ownAbortRun _) _ _ h
  · exact lawful_takeRequest _ _ _ (fun _ _ => lawful_ownAbortSet _) _ _ h
  · exact lawful_takeRequest _ _ _ (fun _ _ => lawful_ownAnnounce _) _ _ h
  · exact lawful_takeRequest _ _ _ (fun _ _ => lawful_ownWithdraw _) _ _ h
  · exact lawful_takeRequest _ _ _ (fun _ _ => lawful_ownResume _) _ _ h
  · exact lawful_takeRequest _ _ _ (fun _ _ => lawful_ownRecoveryQuery _) _ _ h
  · exact lawful_takeRequest _ _ _ (fun _ _ => lawful_ownReadTable _) _ _ h
  · exact lawful_takeRequest _ _ _ (fun _ _ => lawful_ownStatus _) _ _ h
  · exact lawful_takeRequest _ _ _ (fun _ _ => lawful_ownSetParameter _) _ _ h
  · exact lawful_takeRequest _ _ _ (fun _ _ => lawful_ownGetParameter _) _ _ h
  · exact lawful_takeRequest _ _ _ (fun _ _ => lawful_ownBinService _) _ _ h
  · exact lawful_takeRequest _ _ _ (fun _ _ => lawful_ownCompilerService _) _ _ h
  · exact lawful_takeRequest _ _ _ (fun _ _ => lawful_ownNoticeMask _) _ _ h
  · exact lawful_takeRequest _ _ _ (fun _ _ => lawful_ownRestart _) _ _ h
  · exact lawful_takeComplete _ _ _ (fun _ hu => hu) h
theorem lawful_discardFrame (c : LinkCause) (len : Nat) (h : Lawful n s) : Lawful n (discardFrame c len s) :=
  lawful_notify _ (lawful_rx _ h)

end Sys2Proof.Machine
end

