-- ==== Sys2Proof/Laws/Outer.lean ====
section
/-! SUPPORT. What no command but power-on, the load's end and a tick touches: the load flag, the clock, the configuration memory,
the command queue and the pins, as one equation for each operation of the path, the intake and the owners. -/

namespace Sys2Proof.Machine

/-- The part of the state around the blocks. -/
def State.outer (s : State) : Bool × Tick × List Host.Cell × List Instr × Pins :=
  (s.loading, s.now, s.image, s.pending, s.pins)

theorem outer_of_base {s t : State} (h : t.base = s.base) : t.outer = s.outer := by
  have e := congrArg (fun u => (u.loading, u.now, u.image, u.pending, u.pins)) h; exact e

/-! ## Updates -/

@[simp] theorem outer_modComp (x : CompilerId) (f : Compiler → Compiler) (s : State) : (modComp x f s).outer = s.outer :=
  outer_of_base (base_modComp x f s)
@[simp] theorem outer_modRun (r : Fin 16) (f : Run → Run) (s : State) : (modRun r f s).outer = s.outer := rfl
@[simp] theorem outer_setRun (r : Fin 16) (o : Option Run) (s : State) : (setRun r o s).outer = s.outer := rfl
@[simp] theorem outer_modSet (k : SetKey) (f : SetRec → SetRec) (s : State) : (modSet k f s).outer = s.outer := rfl
@[simp] theorem outer_modBin (b : Fin 24) (f : Bin → Bin) (s : State) : (modBin b f s).outer = s.outer := rfl
@[simp] theorem outer_modRouter (f : Router → Router) (s : State) : (modRouter f s).outer = s.outer := rfl
@[simp] theorem outer_modTracker (f : Tracker → Tracker) (s : State) : (modTracker f s).outer = s.outer := rfl
@[simp] theorem outer_modRec (i : Nat) (f : PathRec → PathRec) (s : State) : (modRec i f s).outer = s.outer := rfl
@[simp] theorem outer_modLink (f : Link → Link) (s : State) : (modLink f s).outer = s.outer := rfl
@[simp] theorem outer_notify (b : NoticeBody) (s : State) : (notify b s).outer = s.outer := outer_of_base (base_notify b s)
@[simp] theorem outer_paceTest (s : State) : (paceTest s).outer = s.outer := outer_of_base (base_paceTest s)
@[simp] theorem outer_drainTest (k : SetKey) (s : State) : (drainTest k s).outer = s.outer := outer_of_base (base_drainTest k s)
@[simp] theorem outer_removalTest (k : SetKey) (s : State) : (removalTest k s).outer = s.outer :=
  outer_of_base (base_removalTest k s)
@[simp] theorem outer_closeTestOf (k : SetKey) (s : State) : (closeTestOf k s).outer = s.outer :=
  outer_of_base (base_closeTestOf k s)
@[simp] theorem outer_releaseTest (s : State) : (releaseTest s).outer = s.outer := outer_of_base (base_releaseTest s)
@[simp] theorem outer_cancelTest (d : Bool) (x : CompilerId) (s : State) : (cancelTest d x s).outer = s.outer :=
  outer_of_base (base_cancelTest d x s)
@[simp] theorem outer_divertSet (k : SetKey) (page : Nat) (c : DivertCause) (s : State) :
    (divertSet k page c s).outer = s.outer := rfl

/-! ## Halts (R67 to R70) -/

@[simp] theorem outer_takeStock (h : Handed) (s : State) : (takeStock h s).outer = s.outer := by
  unfold takeStock; split
  · have e := congrArg State.outer (base_buildList h s); exact e
  · rfl
@[simp] theorem outer_stopTransport (h : HaltRecord) (s : State) : (stopTransport h s).outer = s.outer := rfl
@[simp] theorem outer_halt (c : HaltCause) (j : Option (JamKind × Sensor)) (b : NoticeBody) (s : State) :
    (halt c j b s).outer = s.outer := by
  simp only [halt]; repeat' split
  all_goals simp
@[simp] theorem outer_jamAtSensor (k : JamKind) (x : Sensor) (s : State) : (jamAtSensor k x s).outer = s.outer :=
  outer_halt _ _ _ s
@[simp] theorem outer_jamOfRecord (k : JamKind) (x : Sensor) (r : PathRec) (d : Option Tick) (s : State) :
    (jamOfRecord k x r d s).outer = s.outer := outer_halt _ _ _ s
@[simp] theorem outer_purgeRouteTest (s : State) : (purgeRouteTest s).outer = s.outer := by
  unfold purgeRouteTest; split <;> simp
@[simp] theorem outer_jamTest (s : State) : (jamTest s).outer = s.outer := by unfold jamTest; split <;> simp
@[simp] theorem outer_leaveTest (s : State) : (leaveTest s).outer = s.outer := by
  unfold leaveTest leaveHalt; repeat' split
  all_goals first
    | rfl
    | simp

/-! ## Router decisions (R84 to R95) -/

@[simp] theorem outer_setRoute (i : Nat) (r : Route) (reason : Option DivertReason) (s : State) :
    (setRoute i r reason s).outer = s.outer := rfl
@[simp] theorem outer_assign (x : CompilerId) (k : SetKey) (s : State) : (assign x k s).outer = s.outer :=
  outer_of_base (base_assign x k s)
@[simp] theorem outer_takeNewSet (i tag : Nat) (k : SetKey) (l : Tick) (x : CompilerId) (s : State) :
    (takeNewSet i tag k l x s).outer = s.outer := by simp only [takeNewSet]; split <;> simp
@[simp] theorem outer_newSetChoice (i : Nat) (r : PathRec) (sh : Sheet) (s : State) :
    (newSetChoice i r sh s).outer = s.outer := by unfold newSetChoice; split <;> simp
@[simp] theorem outer_routeDecision (i : Nat) (r : PathRec) (sh : Sheet) (s : State) :
    (routeDecision i r sh s).outer = s.outer := by
  simp only [routeDecision]; repeat' split
  all_goals simp
@[simp] theorem outer_reportOverrun (reason : Option DivertReason) (sh : Option Sheet) (s : State) :
    (reportOverrun reason sh s).outer = s.outer := by unfold reportOverrun; split <;> simp
@[simp] theorem outer_diverter (i : Nat) (r : PathRec) (s : State) : (diverter i r s).outer = s.outer := by
  simp only [diverter]; repeat' split
  all_goals simp
@[simp] theorem outer_afterDiverter (r : PathRec) (e l : Bool) (s : State) : (afterDiverter r e l s).outer = s.outer := by
  simp only [afterDiverter]; repeat' split
  all_goals simp
@[simp] theorem outer_park (i : Nat) (s : State) : (park i s).outer = s.outer := rfl

/-! ## Sheet tracking (2.6, 04) -/

@[simp] theorem outer_idleTest (s : State) : (idleTest s).outer = s.outer := by unfold idleTest; split <;> simp
@[simp] theorem outer_startWindow (s : State) : (startWindow s).outer = s.outer := by unfold startWindow; split <;> rfl
@[simp] theorem outer_setReading (x : Sensor) (v : Bool) (s : State) : (setReading x v s).outer = s.outer := rfl
@[simp] theorem outer_addRec (r : PathRec) (s : State) : (addRec r s).outer = s.outer := rfl
@[simp] theorem outer_strayAtLead (c : StrayCause) (s : State) : (strayAtLead c s).outer = s.outer := by simp [strayAtLead]
@[simp] theorem outer_takeHead (es : List Entry) (s : State) : (takeHead es s).outer = s.outer := outer_startWindow _
@[simp] theorem outer_matchHead (e : Entry) (es : List Entry) (s : State) : (matchHead e es s).outer = s.outer := by
  unfold matchHead; split <;> simp
@[simp] theorem outer_s0LeadRun (s : State) : (s0LeadRun s).outer = s.outer := by
  unfold s0LeadRun; repeat' split
  all_goals simp
@[simp] theorem outer_leadAtRest (x : Sensor) (s : State) : (leadAtRest x s).outer = s.outer := by
  unfold leadAtRest; split <;> simp
@[simp] theorem outer_leadAtS0 (s : State) : (leadAtS0 s).outer = s.outer := by
  simp only [leadAtS0]; split <;> simp
@[simp] theorem outer_moveClearDl (i : Nat) (s : State) : (moveClearDl i s).outer = s.outer := by
  simp only [moveClearDl]; repeat' split
  all_goals simp
@[simp] theorem outer_confirm (i : Nat) (r : PathRec) (sh : Sheet) (s : State) : (confirm i r sh s).outer = s.outer := by
  simp [confirm]
@[simp] theorem outer_demote (i : Nat) (r : PathRec) (sh : Sheet) (m : Nat) (s : State) : (demote i r sh m s).outer = s.outer := by
  simp only [demote, outer_purgeRouteTest, outer_notify, outer_startWindow]; rfl
@[simp] theorem outer_s0ClearRec (i : Nat) (r : PathRec) (s : State) : (s0ClearRec i r s).outer = s.outer := by
  simp only [s0ClearRec]; repeat' split
  all_goals simp
theorem outer_clearEvent (x : Sensor) (f : Nat → PathRec → State → State) (hf : ∀ i r u, (f i r u).outer = u.outer)
    (s : State) : (clearEvent x f s).outer = s.outer := by
  simp only [clearEvent, clearInRun, clearInHalt]; repeat' split
  all_goals simp [hf]
@[simp] theorem outer_setDeadlines (i : Nat) (x : Sensor) (c : Bool) (s : State) : (setDeadlines i x c s).outer = s.outer := rfl
@[simp] theorem outer_acceptLead (x : Sensor) (i : Nat) (r : PathRec) (s : State) : (acceptLead x i r s).outer = s.outer := by
  simp only [acceptLead, leadAtS2, leadAtS3]; repeat' split
  all_goals simp
@[simp] theorem outer_leadOfRec (x : Sensor) (i : Nat) (r : PathRec) (s : State) : (leadOfRec x i r s).outer = s.outer := by
  unfold leadOfRec; repeat' split
  all_goals simp
@[simp] theorem outer_leadAt (x : Sensor) (s : State) : (leadAt x s).outer = s.outer := by
  simp only [leadAt, leadInRun]; repeat' split
  all_goals simp
@[simp] theorem outer_dropRec (i : Nat) (s : State) : (dropRec i s).outer = s.outer := rfl
@[simp] theorem outer_countPurged (s : State) : (countPurged s).outer = s.outer := by
  simp only [countPurged]; split <;> simp
@[simp] theorem outer_drainFold (ks : List SetKey) (s : State) : (ks.foldl (fun s k => drainTest k s) s).outer = s.outer := by
  induction ks generalizing s with
  | nil => rfl
  | cons k ks ih => simp [ih]
@[simp] theorem outer_exitPurge (i : Nat) (r : PathRec) (s : State) : (exitPurge i r s).outer = s.outer := by
  simp only [exitPurge, purgeConfirmed, drainTests]; repeat' split
  all_goals simp
@[simp] theorem outer_exitLanding (x : CompilerId) (i : Nat) (r : PathRec) (s : State) :
    (exitLanding x i r s).outer = s.outer := by
  simp only [exitLanding]; split
  · simp
  · rw [outer_idleTest, outer_of_base (base_land _ _ _ _), outer_dropRec]
@[simp] theorem outer_clearOfRec (x : Sensor) (i : Nat) (r : PathRec) (s : State) : (clearOfRec x i r s).outer = s.outer := by
  unfold clearOfRec; split <;> simp

/-! ## Covers and timers (4.2) -/

@[simp] theorem outer_openCover (c : Cover) (s : State) : (openCover c s).outer = s.outer := by
  simp only [openCover]; split <;> simp
@[simp] theorem outer_closeCover (c : Cover) (s : State) : (closeCover c s).outer = s.outer := by
  simp only [closeCover, outer_leaveTest]
  split
  · rw [outer_of_base (base_resumeCompiler _ _), outer_of_base (base_resumeCompiler _ _)]; simp
  · simp only [emptyTray]; split <;> simp

/-! ## The queue (02) -/

@[simp] theorem outer_removeFrom (i : Nat) (s : State) : (removeFrom i s).outer = s.outer := by
  simp only [removeFrom, outer_idleTest]
  have e := fun u : State => outer_of_base (base_rollback (s.queue.drop i) u)
  exact (e { s with queue := s.queue.take i, window := if i = 0 then none else s.window }).trans rfl
@[simp] theorem outer_raise (i v a : Nat) (s : State) : (raise i v a s).outer = s.outer := by
  unfold raise; rw [outer_notify]; rfl
@[simp] theorem outer_latchPathMedia (s : State) : (latchPathMedia s).outer = s.outer := by
  simp only [latchPathMedia]
  rw [outer_of_base (base_purgeCapacityTest _ _), outer_modTracker]
  have h2 : ∀ u : State, (fixZ2 u).outer = u.outer := fun u => by unfold fixZ2; split <;> simp
  have h4 : ∀ u : State, (fixZ4 u).outer = u.outer := fun u => by unfold fixZ4; split <;> simp
  have hj : ∀ u : State, (fixTJam u).outer = u.outer := fun u => by unfold fixTJam; split <;> simp
  rw [hj, h4, h2]; rfl
@[simp] theorem outer_startSpinup (s : State) : (startSpinup s).outer = s.outer := by simp [startSpinup]
@[simp] theorem outer_acceptAnnounce (tag : Nat) (sh : Sheet) (rep : Bool) (s : State) :
    (acceptAnnounce tag sh rep s).outer = s.outer := by
  have e := outer_of_base (base_announceSet sh s)
  simp only [acceptAnnounce]
  generalize announceSet sh s = u at *
  rw [← e]
  have key : ∀ q : List Entry, (modTracker (fun t => { t with idle := none }) { u with queue := q }).outer = u.outer :=
    fun _ => rfl
  repeat' split
  · exact (outer_startWindow _).trans (key _)
  · exact key _
  · exact (outer_startSpinup _).trans (key _)
  · exact key _
  · exact key _
  · exact key _
@[simp] theorem outer_abortRecord (k : SetKey) (s : State) : (abortRecord k s).outer = s.outer := by
  simp only [abortRecord, outer_closeTestOf, outer_drainTest, outer_removalTest]; rfl
theorem outer_abortFold (ks : List SetKey) (s : State) : (ks.foldl (fun s k => abortRecord k s) s).outer = s.outer := by
  induction ks generalizing s with
  | nil => rfl
  | cons k ks ih => simp [ih]
@[simp] theorem outer_abortRunNow (r : Fin 16) (s : State) : (abortRunNow r s).outer = s.outer := by
  simp only [abortRunNow, outer_of_base (base_finishChecks _ _), outer_abortFold, outer_modRun]
@[simp] theorem outer_abortSetNow (k : SetKey) (s : State) : (abortSetNow k s).1.outer = s.outer := by
  unfold abortSetNow; split
  · exact outer_of_base (base_countFinished _ _ _)
  · exact outer_abortRecord _ _

/-! ## The owners -/

theorem outer_ownOpenRun (p : List Byte) (s : State) : (ownOpenRun p s).1.outer = s.outer := by
  unfold ownOpenRun; simp only [openClaim]; repeat' split
  all_goals first
    | rfl
    | exact outer_of_base (by simp)
theorem outer_ownAbortRun (p : List Byte) (s : State) : (ownAbortRun p s).1.outer = s.outer := by
  unfold ownAbortRun; repeat' split
  all_goals simp
theorem outer_ownAbortSet (p : List Byte) (s : State) : (ownAbortSet p s).1.outer = s.outer := by
  unfold ownAbortSet; simp only; repeat' split
  all_goals simp
theorem outer_ownAnnounce (p : List Byte) (s : State) : (ownAnnounce p s).1.outer = s.outer := by
  unfold ownAnnounce; repeat' split
  all_goals simp
theorem outer_ownWithdraw (p : List Byte) (s : State) : (ownWithdraw p s).1.outer = s.outer := by
  unfold ownWithdraw; simp only; repeat' split
  all_goals simp
theorem outer_ownResume (p : List Byte) (s : State) : (ownResume p s).1.outer = s.outer := by
  unfold ownResume; repeat' split
  all_goals rfl
theorem outer_ownRecoveryQuery (p : List Byte) (s : State) : (ownRecoveryQuery p s).1.outer = s.outer := by
  unfold ownRecoveryQuery; simp only; repeat' split
  all_goals rfl
theorem outer_ownReadTable (p : List Byte) (s : State) : (ownReadTable p s).1.outer = s.outer := by
  unfold ownReadTable; simp only; repeat' split
  all_goals rfl
theorem outer_ownStatus (p : List Byte) (s : State) : (ownStatus p s).1.outer = s.outer := by unfold ownStatus; rfl
@[simp] theorem outer_latchStaged (g : Group) (s : State) : (latchStaged g s).outer = s.outer := by
  have e := outer_of_base (base_deliveryLatch s)
  cases g
  case delivery =>
    unfold latchStaged; simp only
    split
    · exact e
    · rfl
  all_goals rfl
theorem outer_ownSetParameter (p : List Byte) (s : State) : (ownSetParameter p s).1.outer = s.outer := by
  unfold ownSetParameter; simp only; repeat' split
  all_goals first
    | rfl
    | (simp only [outer_latchStaged]; rfl)
theorem outer_ownGetParameter (p : List Byte) (s : State) : (ownGetParameter p s).1.outer = s.outer := by
  unfold ownGetParameter; split <;> rfl
theorem outer_ownNoticeMask (p : List Byte) (s : State) : (ownNoticeMask p s).1.outer = s.outer := by
  unfold ownNoticeMask; simp only; split <;> rfl
theorem outer_ownBinService (p : List Byte) (s : State) : (ownBinService p s).1.outer = s.outer := by
  unfold ownBinService; simp only; repeat' split
  all_goals first
    | rfl
    | exact outer_of_base (base_serveBins _ _ _)
theorem outer_ownCompilerService (p : List Byte) (s : State) : (ownCompilerService p s).1.outer = s.outer := by
  unfold ownCompilerService; split
  · rename_i a _ _
    cases a
    · simp only [compilerOut]; split <;> simp
    · simp only [compilerIn]; repeat' split
      all_goals simp [outer_of_base (base_compileLatch _ _)]
  · rfl
theorem outer_loadGroups (gs : List Group) (s : State) : (loadGroups gs s).outer = s.outer := by
  unfold loadGroups
  induction gs generalizing s with
  | nil => rfl
  | cons g gs ih => simp only [List.foldl_cons, ih]; rfl
theorem outer_profileFaultNotice (gs : List Group) (s : State) : (profileFaultNotice gs s).outer = s.outer := by
  unfold profileFaultNotice; split <;> simp
theorem outer_restartPathNow (s : State) : (restartPathNow s).outer = s.outer := by
  simp only [restartPathNow, outer_latchPathMedia, outer_profileFaultNotice, outer_loadGroups]
theorem outer_restartPath (s : State) : (restartPath s).1.outer = s.outer := by
  have e := outer_restartPathNow s
  unfold restartPath; split
  · simp only; exact e
  · rfl
theorem outer_restartFull (s : State) : (restartFull s).1.outer = s.outer := by
  unfold restartFull; exact outer_modLink _ _
theorem outer_ownRestart (p : List Byte) (s : State) : (ownRestart p s).1.outer = s.outer := by
  unfold ownRestart; split
  · rfl
  · exact outer_restartFull s
  · exact outer_restartPath s

/-! ## The link (R160 to R162) -/

@[simp] theorem outer_reply (kind seq : Byte) (a : Answer) (s : State) : (reply kind seq a s).outer = s.outer := rfl
theorem outer_takeComplete (kind seq : Byte) (f : State → State × Answer) (hf : ∀ u, (f u).1.outer = u.outer) (s : State) :
    (takeComplete kind seq f s).outer = s.outer := by
  simp only [takeComplete]; repeat' split
  all_goals simp [hf]
theorem outer_takeRequest (kind len : Nat) (own : Owner) (hown : ∀ p u, (own p u).1.outer = u.outer) (seq : Byte)
    (p : List Byte) (s : State) : (takeRequest kind len own seq p s).outer = s.outer := by
  refine outer_takeComplete _ _ _ (fun u => ?_) s
  unfold checkLength; split
  · exact hown _ _
  · rfl
theorem outer_takeFrame (kind seq : Byte) (p : List Byte) (s : State) : (takeFrame kind seq p s).outer = s.outer := by
  unfold takeFrame
  split
  · exact outer_takeRequest _ _ _ outer_ownOpenRun _ _ s
  · exact outer_takeRequest _ _ _ outer_ownAbortRun _ _ s
  · exact outer_takeRequest _ _ _ outer_ownAbortSet _ _ s
  · exact outer_takeRequest _ _ _ outer_ownAnnounce _ _ s
  · exact outer_takeRequest _ _ _ outer_ownWithdraw _ _ s
  · exact outer_takeRequest _ _ _ outer_ownResume _ _ s
  · exact outer_takeRequest _ _ _ outer_ownRecoveryQuery _ _ s
  · exact outer_takeRequest _ _ _ outer_ownReadTable _ _ s
  · exact outer_takeRequest _ _ _ outer_ownStatus _ _ s
  · exact outer_takeRequest _ _ _ outer_ownSetParameter _ _ s
  · exact outer_takeRequest _ _ _ outer_ownGetParameter _ _ s
  · exact outer_takeRequest _ _ _ outer_ownBinService _ _ s
  · exact outer_takeRequest _ _ _ outer_ownCompilerService _ _ s
  · exact outer_takeRequest _ _ _ outer_ownNoticeMask _ _ s
  · exact outer_takeRequest _ _ _ outer_ownRestart _ _ s
  · exact outer_takeComplete _ _ _ (fun _ => rfl) s
@[simp] theorem outer_discardFrame (c : LinkCause) (len : Nat) (s : State) : (discardFrame c len s).outer = s.outer := by
  simp [discardFrame]
theorem outer_takeEvent (pin : Pins → Pins) (event : State → State) (he : ∀ u, (event u).outer = u.outer) (s : State) :
    (takeEvent pin event s).outer = (s.loading, s.now, s.image, s.pending, pin s.pins) := by
  unfold takeEvent; split
  · rfl
  · rw [he]; rfl

end Sys2Proof.Machine
end

