-- ==== Sys2Proof/Laws/Device.lean ====
section
/-! SUPPORT. The laws of Safety.lean over the load and the run together, and the commands that keep them: each lemma names one
kind of command (an event at the mechanism port, an operation of the delivery side, a timer, a power-on, the load's end). -/

namespace Sys2Proof.Machine

variable {s t : State}

/-- The laws of a state, loading or running. -/
def Sound (s : State) : Prop := Stores 4 s ∧ if s.loading = true then LoadLaw s else Lawful 4 s

theorem sound_iff : Sound s ↔ TransportLaw s ∧ CapacityLaw s ∧ BinLaw s := by
  unfold Sound TransportLaw CapacityLaw TableCapacity
  constructor
  · rintro ⟨hs, h⟩
    split at h
    · rename_i hl
      obtain ⟨h1, h2, h3, h4, h5, h6, h7⟩ := h
      rw [if_pos hl]
      refine ⟨⟨h1, h2, h3, h4, h5, h6, h7⟩, ⟨hs.link, ?_, hs.runs, hs.sets, hs.bins.1, by simp [h7]⟩, hs.bins⟩
      exact ⟨by simp [h5, h6, State.placesHeld], by simp [h5], by simp [h5]⟩
    · rename_i hl
      rw [if_neg hl]
      exact ⟨h.running, ⟨hs.link, h.path, hs.runs, hs.sets, hs.bins.1, h.recovery⟩, hs.bins⟩
  · rintro ⟨h, ⟨hl, hp, hr, hq, _, hv⟩, hb⟩
    refine ⟨⟨hl, hr, hq, hb⟩, ?_⟩
    split at h
    · rename_i e; rw [if_pos e]; exact h
    · rename_i e; rw [if_neg e]; exact ⟨⟨hl, hr, hq, hb⟩, h, hp, hv⟩

theorem Sound.lawful (h : Sound s) (hl : s.loading = false) : Lawful 4 s := by
  have := h.2; rw [if_neg (by simp [hl])] at this; exact this
theorem Sound.load (h : Sound s) (hl : s.loading = true) : LoadLaw s := by
  have := h.2; rw [if_pos hl] at this; exact this
theorem sound_of_lawful (h : Lawful 4 s) (hl : s.loading = false) : Sound s := ⟨h.stores, by rw [if_neg (by simp [hl])]; exact h⟩
theorem sound_of_load (hs : Stores 4 s) (h : LoadLaw s) (hl : s.loading = true) : Sound s := ⟨hs, by rw [if_pos hl]; exact h⟩

theorem loading_of_outer (h : t.outer = s.outer) : t.loading = s.loading := congrArg Prod.fst h

/-- A state that agrees with a loading state on what the law of the load reads keeps it. -/
theorem LoadLaw.base (h : LoadLaw s) (hb : t.base = s.base) : LoadLaw t := by
  obtain ⟨h1, h2, h3, h4, h5, h6, h7⟩ := h
  have e := still_of_base hb
  rw [h5] at e
  exact ⟨by rw [transport_of_base hb, h1], by rw [causes_of_base hb, h2], by rw [spinup_of_base hb, h3],
    by rw [idle_of_base hb, h4], by simpa using e, by rw [queue_of_base hb, h6], by rw [recovery_of_base hb, h7]⟩

/-- An operation of the delivery side or of the link keeps the laws. -/
theorem Sound.base (h : Sound s) (hs : Stores 4 t) (hb : t.base = s.base) : Sound t := by
  have el := loading_of_base hb
  cases hl : s.loading with
  | true => exact sound_of_load hs ((h.load hl).base hb) (by rw [el, hl])
  | false => exact sound_of_lawful ((h.lawful hl).base hs hb) (by rw [el, hl])

/-- The command queue is no part of the laws. -/
theorem sound_pending (q : List Instr) (h : Sound s) : Sound { s with pending := q } := by
  rw [sound_iff] at h ⊢; exact h
/-- Nor is the clock. -/
theorem sound_now (n : Tick) (h : Sound s) : Sound { s with now := n } := by
  rw [sound_iff] at h ⊢; exact h
theorem sound_tick (h : Sound s) : Sound (tick s) := by
  unfold tick; exact sound_pending _ (sound_now _ h)

/-- An event at the mechanism port (R176): during the load only the pin changes. -/
theorem sound_takeEvent {pin : Pins → Pins} {event : State → State} (h : Sound s)
    (he : Lawful 4 s → Lawful 4 (event (modPins pin s))) (ho : (event (modPins pin s)).outer = (modPins pin s).outer) :
    Sound (takeEvent pin event s) := by
  unfold takeEvent
  cases hl : s.loading with
  | true =>
    obtain ⟨h1, h2, h3, h4, h5, h6, h7⟩ := h.load hl
    exact sound_of_load (stores_modPins pin h.1) ⟨h1, h2, h3, h4, h5, h6, h7⟩ hl
  | false =>
    exact sound_of_lawful (he (h.lawful hl)) ((loading_of_outer ho).trans hl)

/-- A pin that is no cover's changes no law. -/
theorem lawful_modPins {n : Nat} (f : Pins → Pins) (hf : (f s.pins).front = s.pins.front) (ht : (f s.pins).top = s.pins.top)
    (h : Lawful n s) : Lawful n (modPins f s) := by
  obtain ⟨hs, h2, h3, h4⟩ := h
  refine ⟨stores_modPins f hs, ?_, h3, h4⟩
  unfold RunningLaw TransportTimers CoversCaused Calm at h2 ⊢
  have e1 : (modPins f s).pins.front = s.pins.front := hf
  have e2 : (modPins f s).pins.top = s.pins.top := ht
  rw [e1, e2]; exact h2

/-- An event of the delivery side. -/
theorem sound_deliveryEvent {pin : Pins → Pins} {event : State → State} (h : Sound s)
    (hf : ∀ p, (pin p).front = p.front ∧ (pin p).top = p.top) (hs : ∀ u, Stores 4 u → Stores 4 (event u))
    (hb : ∀ u, (event u).base = u.base) : Sound (takeEvent pin event s) :=
  sound_takeEvent h
    (fun hl => ((lawful_modPins pin (hf _).1 (hf _).2 hl).base (hs _ (stores_modPins pin hl.stores)) (hb _)))
    (outer_of_base (hb _))

/-- An event of the path. -/
theorem sound_pathEvent {pin : Pins → Pins} {event : State → State} (h : Sound s)
    (hf : ∀ p, (pin p).front = p.front ∧ (pin p).top = p.top) (he : ∀ u, Lawful 4 u → Lawful 4 (event u))
    (ho : ∀ u, (event u).outer = u.outer) : Sound (takeEvent pin event s) :=
  sound_takeEvent h (fun hl => he _ (lawful_modPins pin (hf _).1 (hf _).2 hl)) (ho _)

/-- A timer of the path: it does nothing while its condition fails, as it does during the load. -/
theorem sound_timer {f : State → State} (h : Sound s) (hl : LoadLaw s → f s = s) (he : Lawful 4 s → Lawful 4 (f s))
    (ho : (f s).outer = s.outer) : Sound (f s) := by
  cases e : s.loading with
  | true => rw [hl (h.load e)]; exact h
  | false => exact sound_of_lawful (he (h.lawful e)) ((loading_of_outer ho).trans e)

/-- A complete request frame (R161, R162). -/
theorem sound_takeComplete (kind seq : Byte) (f : State → State × Answer) (hf : ∀ u, Lawful 3 u → Lawful 3 (f u).1)
    (ho : ∀ u, (f u).1.outer = u.outer) (h : Sound s) : Sound (takeComplete kind seq f s) := by
  cases e : s.loading with
  | false =>
    exact sound_of_lawful (lawful_takeComplete _ _ _ hf (h.lawful e))
      ((loading_of_outer (outer_takeComplete _ _ _ ho s)).trans e)
  | true =>
    have h1 := stores_modLink (fun l => { l with rx := Receiver.hunting }) h.1 h.1.link
    have h0 := h.base h1 rfl
    simp only [takeComplete]
    repeat' split
    · exact h0
    · exact h0.base (stores_notify _ h1) (base_notify _ _)
    · rename_i hlt _
      refine h0.base ?_ rfl
      refine stores_modLink _ h1 (linkWithin_queueReply (n := 3) _ ⟨?_, h1.link.2⟩)
      have : ¬ 4 ≤ s.link.replies.length := hlt
      show s.link.replies.length ≤ 3
      omega
    · rename_i hne; exact absurd e hne

/-! ## Power-on and the load's end (R169, R176) -/

theorem initial_bins : BinLaw (State.powerOn Pins.quiet [] []) := by
  refine ⟨by decide, fun q hq => ?_⟩
  have : q = Bin.initial := List.eq_of_mem_replicate hq
  subst this
  exact ⟨by simp [Bin.initial], by simp [Bin.initial], by simp [Bin.initial], by simp [Bin.initial]⟩

theorem sound_powerOn (p : Pins) (m : List Host.Cell) (c : List Instr) : Sound (State.powerOn p m c) := by
  refine sound_of_load ⟨⟨?_, ?_⟩, ?_, ?_, initial_bins⟩ ⟨rfl, rfl, rfl, rfl, rfl, rfl, rfl⟩ rfl
  · exact Nat.zero_le _
  · exact Nat.zero_le _
  · exact List.length_replicate
  · exact List.length_replicate

theorem startBins_lawful (p : Pins) : ∀ q ∈ startBins p, q.lawful := by
  intro q hq
  unfold startBins at hq
  obtain ⟨b, _, rfl⟩ := List.mem_map.1 hq
  unfold Bin.start
  exact ⟨by simp, by simp, by simp, by simp⟩

theorem stores_latchMask (h : Stores 4 s) : Stores 4 (latchMask s) := h.of h.link rfl rfl rfl
theorem stores_startBlocks (h : Stores 4 s) : Stores 4 (startBlocks s) :=
  ⟨h.link, h.runs, h.sets, by simp [startBlocks, startBins, allBins], startBins_lawful _⟩

/-- The cover part of the power-on check (R63): after it the law of RUN holds. -/
def coverCheck (s : State) : State :=
  let s := if s.pins.front then halt .coverFront none (.cover .front true) s else s
  if s.pins.top then halt .coverTop none (.cover .top true) s else s

theorem lawful_coverCheck (h : Haltable 4 s) (hc : s.tracker.causes = {}) (hr : s.recovery = none) :
    Lawful 4 (coverCheck s) := by
  simp only [coverCheck]
  cases hf : s.pins.front <;> cases htop : s.pins.top
  · simp only [Bool.false_eq_true, if_false, htop]
    exact ⟨h.stores, ⟨h.timers, ⟨by simp [hf], by simp [htop]⟩, fun _ => ⟨hf, htop, hc⟩, by simp [hr]⟩, h.path, h.recovery⟩
  · simp only [Bool.false_eq_true, if_false, htop, if_true]
    exact lawful_halt h (by simp [hf]) (by simp [CauseSet.add])
  · obtain ⟨_, _, _, e⟩ := halt_leaves (cause := .coverFront) (jam := none) (b := .cover .front true) h
    simp only [if_true, e, htop, Bool.false_eq_true, if_false]
    exact lawful_halt h (by simp [CauseSet.add]) (by simp [htop])
  · obtain ⟨h', e1, e2, e3⟩ := halt_leaves (cause := .coverFront) (jam := none) (b := .cover .front true) h
    simp only [if_true, e3, htop]
    exact lawful_halt h' (by simp [e2, CauseSet.add]) (by simp [CauseSet.add])

theorem lawful_powerOnCheck (h : Haltable 4 s) (hc : s.tracker.causes = {}) (hr : s.recovery = none) :
    Lawful 4 (powerOnCheck s) := by
  have h1 := lawful_coverCheck h hc hr
  have e : powerOnCheck s = match allSensors.find? (coverCheck s).tracker.readings.get with
    | none => coverCheck s
    | some x => jamAtSensor .unexpected x (coverCheck s) := rfl
  rw [e]
  split
  · exact h1
  · exact lawful_jamAtSensor _ _ h1

@[simp] theorem loading_startBlocks (s : State) : (startBlocks s).loading = s.loading := rfl
theorem outer_powerOnCheck (s : State) : (powerOnCheck s).outer = s.outer := by
  simp only [powerOnCheck]
  split
  · split <;> split <;> simp
  · rw [outer_jamAtSensor]; split <;> split <;> simp

theorem stores_loadGroups {n : Nat} (gs : List Group) (h : Stores n s) : Stores n (loadGroups gs s) := by
  unfold loadGroups
  induction gs generalizing s with
  | nil => exact h
  | cons g gs ih => exact ih (h.of h.link rfl rfl rfl)
theorem loadGroups_keeps (gs : List Group) (s : State) : (loadGroups gs s).tracker = s.tracker ∧
    (loadGroups gs s).queue = s.queue ∧ (loadGroups gs s).recovery = s.recovery := by
  unfold loadGroups
  induction gs generalizing s with
  | nil => exact ⟨rfl, rfl, rfl⟩
  | cons g gs ih => exact ih _
theorem stores_raise {n : Nat} (i v a : Nat) (h : Stores n s) : Stores n (raise i v a s) := by
  unfold raise; exact stores_notify _ (h.of h.link rfl rfl rfl)
theorem stores_latchPathMedia {n : Nat} (h : Stores n s) : Stores n (latchPathMedia s) := by
  have h2 : ∀ u : State, Stores n u → Stores n (fixZ2 u) := fun u hu => by
    unfold fixZ2; split
    · exact stores_raise _ _ _ hu
    · exact hu
  have h4 : ∀ u : State, Stores n u → Stores n (fixZ4 u) := fun u hu => by
    unfold fixZ4; split
    · exact stores_raise _ _ _ hu
    · exact hu
  have hj : ∀ u : State, Stores n u → Stores n (fixTJam u) := fun u hu => by
    unfold fixTJam; split
    · exact stores_raise _ _ _ hu
    · exact hu
  have hp : ∀ (w : Bool) (u : State), Stores n u → Stores n (purgeCapacityTest w u) := fun w u hu => by
    unfold purgeCapacityTest; repeat' split
    all_goals simp [hu]
  simp only [latchPathMedia]
  exact hp _ _ (stores_modTracker _ (hj _ (h4 _ (h2 _ (h.of h.link rfl rfl rfl)))))

/-- The end of the profile load (R176). -/
theorem sound_endLoad (h : Sound s) (hl : s.loading = true) : Sound (endLoad s) := by
  obtain ⟨l1, l2, l3, l4, l5, l6, l7⟩ := h.load hl
  have h1 : Stores 4 (latchMask (loadGroups allGroups { s with loading := false })) :=
    stores_latchMask (stores_loadGroups _ (h.1.of h.1.link rfl rfl rfl))
  obtain ⟨k1, k2, k3⟩ := loadGroups_keeps allGroups { s with loading := false }
  have o1 := outer_loadGroups allGroups { s with loading := false }
  have m1 : (latchMask (loadGroups allGroups { s with loading := false })).tracker = s.tracker := k1
  have m2 : (latchMask (loadGroups allGroups { s with loading := false })).queue = s.queue := k2
  have m3 : (latchMask (loadGroups allGroups { s with loading := false })).recovery = s.recovery := k3
  have m4 : (latchMask (loadGroups allGroups { s with loading := false })).loading = false := loading_of_outer o1
  simp only [endLoad]
  generalize latchMask _ = u at *
  have h2 : Stores 4 (profileFaultNotice allGroups u) := by unfold profileFaultNotice; split <;> simp [h1]
  have b2 : (profileFaultNotice allGroups u).base = u.base := by unfold profileFaultNotice; split <;> simp
  have h3 := stores_latchPathMedia h2
  have st := (sameTransport_of_base b2).trans (sameTransport_latchPathMedia (profileFaultNotice allGroups u))
  generalize latchPathMedia _ = v at *
  obtain ⟨e1, e2, e3, _, e5, e6⟩ := st
  rw [m1] at e1 e2
  rw [m2] at e3; rw [m3] at e5; rw [m4] at e6
  have p1 : v.tracker.transport = .off := by rw [e1]; exact l1
  have p2 : v.tracker.causes = {} := by rw [e1]; exact l2
  have p3 : v.tracker.spinup = none := by rw [e1]; exact l3
  have p4 : v.tracker.idle = none := by rw [e1]; exact l4
  have p5 : v.tracker.path = [] := by rw [l5] at e2; simpa using e2
  have p6 : v.queue = [] := by rw [e3, l6]
  have p7 : v.recovery = none := by rw [e5, l7]
  have hh : Haltable 4 (startBlocks v) := by
    refine ⟨stores_startBlocks h3, ⟨?_, ?_, ?_, ?_⟩, ⟨?_, ?_, ?_⟩, ?_⟩ <;>
      simp [startBlocks, p3, p4, p5, p6, p7, State.placesHeld]
  have hc := lawful_powerOnCheck hh p2 p7
  refine sound_of_lawful (lawful_paceTest hc) ?_
  rw [loading_of_outer (outer_paceTest _), loading_of_outer (outer_powerOnCheck _), loading_startBlocks, e6]

/-! ## Frames and the entry to RUN (R65, R160, R161) -/

theorem sound_takeRequest (kind len : Nat) (own : Owner) (hown : ∀ p u, Lawful 3 u → Lawful 3 (own p u).1)
    (ho : ∀ p u, (own p u).1.outer = u.outer) (seq : Byte) (p : List Byte) (h : Sound s) :
    Sound (takeRequest kind len own seq p s) := by
  refine sound_takeComplete _ _ _ (fun u hu => ?_) (fun u => ?_) h
  · unfold checkLength; split
    · exact hown _ _ hu
    · exact hu
  · unfold checkLength; split
    · exact ho _ _
    · rfl

theorem sound_takeFrame (kind seq : Byte) (p : List Byte) (h : Sound s) : Sound (takeFrame kind seq p s) := by
  unfold takeFrame
  split
  · exact sound_takeRequest _ _ _ (fun _ _ => lawful_ownOpenRun _) outer_ownOpenRun _ _ h
  · exact sound_takeRequest _ _ _ (fun _ _ => lawful_ownAbortRun _) outer_ownAbortRun _ _ h
  · exact sound_takeRequest _ _ _ (fun _ _ => lawful_ownAbortSet _) outer_ownAbortSet _ _ h
  · exact sound_takeRequest _ _ _ (fun _ _ => lawful_ownAnnounce _) outer_ownAnnounce _ _ h
  · exact sound_takeRequest _ _ _ (fun _ _ => lawful_ownWithdraw _) outer_ownWithdraw _ _ h
  · exact sound_takeRequest _ _ _ (fun _ _ => lawful_ownResume _) outer_ownResume _ _ h
  · exact sound_takeRequest _ _ _ (fun _ _ => lawful_ownRecoveryQuery _) outer_ownRecoveryQuery _ _ h
  · exact sound_takeRequest _ _ _ (fun _ _ => lawful_ownReadTable _) outer_ownReadTable _ _ h
  · exact sound_takeRequest _ _ _ (fun _ _ => lawful_ownStatus _) outer_ownStatus _ _ h
  · exact sound_takeRequest _ _ _ (fun _ _ => lawful_ownSetParameter _) outer_ownSetParameter _ _ h
  · exact sound_takeRequest _ _ _ (fun _ _ => lawful_ownGetParameter _) outer_ownGetParameter _ _ h
  · exact sound_takeRequest _ _ _ (fun _ _ => lawful_ownBinService _) outer_ownBinService _ _ h
  · exact sound_takeRequest _ _ _ (fun _ _ => lawful_ownCompilerService _) outer_ownCompilerService _ _ h
  · exact sound_takeRequest _ _ _ (fun _ _ => lawful_ownNoticeMask _) outer_ownNoticeMask _ _ h
  · exact sound_takeRequest _ _ _ (fun _ _ => lawful_ownRestart _) outer_ownRestart _ _ h
  · exact sound_takeComplete _ _ _ (fun _ hu => hu) (fun _ => rfl) h

theorem sound_rx (rx : Receiver) (h : Sound s) : Sound (modLink (fun l => { l with rx := rx }) s) :=
  h.base (stores_modLink _ h.1 h.1.link) rfl
theorem sound_discard (c : LinkCause) (len : Nat) (h : Sound s) : Sound (discardFrame c len s) :=
  (sound_rx _ h).base (stores_notify _ (sound_rx _ h).1) (base_notify _ _)

/-- The spin-up's end enters RUN with the law of RUN (R65, R66). -/
theorem lawful_enterRun (h : Lawful 4 s) (hs : s.tracker.spinup.isSome = true) :
   Lawful 4 (idleTest (startWindow (notify .ready (modTracker (fun t => { t with transport := .run, spinup := none }) s)))) := by
  obtain ⟨a, ⟨⟨r1, r2, r3, r4⟩, r5, r6, r7⟩, c, b4⟩ := h
  have hsp := r1 hs
  rw [hsp] at r2 r3 r4 r6 r7
  have hpath : s.tracker.path = [] := by
    by_contra e; exact absurd (r3 e) (by decide)
  refine lawful_idleTest (lawful_startWindow (lawful_notify _ ⟨stores_modTracker _ a, ⟨⟨?_, ?_, ?_, ?_⟩, r5, ?_, ?_⟩, c, b4⟩))
  · simp
  · intro e; exact absurd (r2 e).1 (by decide)
  · simp [hpath]
  · intro _; exact Or.inl rfl
  · intro _; exact r6 (by decide)
  · intro e; rcases r7 e with e | e <;> exact absurd e (by decide)

end Sys2Proof.Machine
end

