-- ==== Sys2Proof/Laws/Answers.lean ====
section
/-! SUPPORT. What a complete request frame leads to (R160 to R162, R169), said once: the gates before the owner, and the owner's
answer when none of them stands. -/

namespace Sys2Proof.Machine

variable {kind len : Nat} {own : Owner} {q : Byte} {p : List Byte} {s : State}

/-- A frame complete while a Restart FULL waits is discarded (R169). -/
theorem takeRequest_restarting (h : s.link.restartWait = true) : takeRequest kind len own q p s = s.hunted := by
  simp [takeRequest, takeComplete, h]; rfl

/-- A frame that finds 4 replies queued is discarded with a Link Error notice (R162). -/
theorem takeRequest_overrun (h : s.link.restartWait = false) (h2 : 4 ≤ s.link.replies.length) :
    takeRequest kind len own q p s = notify (.linkError .overrun 0 (byte kind) q) s.hunted := by
  simp [takeRequest, takeComplete, h, Config.replyPlaces, h2]; rfl

/-- During the load the answer is STARTING (R161). -/
theorem takeRequest_starting (h : s.link.restartWait = false) (h2 : s.link.replies.length < 4) (h3 : s.loading = true) :
    takeRequest kind len own q p s = s.hunted.replied (byte kind) q .starting none [] := by
  simp [takeRequest, takeComplete, h, Config.replyPlaces, Nat.not_le.2 h2, h3]; rfl

/-- A payload of another length is refused (R161). -/
theorem takeRequest_badLength (h : RequestsTaken s) (hp : p.length ≠ len) :
    takeRequest kind len own q p s = s.hunted.replied (byte kind) q .refused (some .badLength) [] := by
  obtain ⟨h1, h2, h3⟩ := h
  simp [takeRequest, takeComplete, h1, h2, Nat.not_le.2 h3, checkLength, hp]; rfl

/-- Else the owner's answer is the reply (R161). -/
theorem takeRequest_owner (h : RequestsTaken s) (hp : p.length = len) :
    takeRequest kind len own q p s =
      (own p s.hunted).1.replied (byte kind) q (own p s.hunted).2.status (own p s.hunted).2.reason
        (own p s.hunted).2.body := by
  obtain ⟨h1, h2, h3⟩ := h
  simp [takeRequest, takeComplete, h1, h2, Nat.not_le.2 h3, checkLength, hp]; rfl

/-- The same of an owner whose answer is known. -/
theorem takeRequest_answer {u : State} {a : Answer} (h : RequestsTaken s) (hp : p.length = len) (ho : own p s.hunted = (u, a)) :
    takeRequest kind len own q p s = u.replied (byte kind) q a.status a.reason a.body := by
  rw [takeRequest_owner h hp, ho]

end Sys2Proof.Machine
end

