-- ==== Sys2Proof/Laws/Events.lean ====
section
/-! SUPPORT. What an event at the mechanism port leads to outside the profile load (R176), said once for each of its commands,
and the parts of the state that a notice and a pace test leave alone. -/

namespace Sys2Proof.Machine

/-! ## Events outside the load -/

/-- Outside the load the input takes its level and the block takes the event. -/
theorem takeEvent_run {s : State} (h : s.loading = false) (p : Pins → Pins) (e : State → State) :
    takeEvent p e s = e (modPins p s) := by
  rw [takeEvent, if_neg (by simp [h])]

/-- During the load only the input level changes. -/
theorem takeEvent_load {s : State} (h : s.loading = true) (p : Pins → Pins) (e : State → State) :
    takeEvent p e s = modPins p s := if_pos h

section
variable {s : State} (h : s.loading = false)
include h

theorem exec_s0Lead : exec .s0Lead s = .next (leadAtS0 (modPins (Pins.setSensor .s0 true) s)) :=
  congrArg _ (takeEvent_run h _ _)
theorem exec_s0Clear : exec .s0Clear s = .next (clearEvent .s0 s0ClearRec (modPins (Pins.setSensor .s0 false) s)) :=
  congrArg _ (takeEvent_run h _ _)
theorem exec_sensorLead (x : Sensor) (hx : x ≠ .s0) :
    exec (.sensorLead x) s = .next (leadAt x (modPins (Pins.setSensor x true) s)) := by
  show Host.Outcome.next (takeEvent (Pins.setSensor x true) (if x = .s0 then leadAtS0 else leadAt x) s) = _
  rw [if_neg hx]; exact congrArg _ (takeEvent_run h _ _)
theorem exec_sensorClear (x : Sensor) (hx : x ≠ .s0) :
    exec (.sensorClear x) s = .next (clearEvent x (clearOfRec x) (modPins (Pins.setSensor x false) s)) := by
  show Host.Outcome.next
    (takeEvent (Pins.setSensor x false) (clearEvent x (if x = .s0 then s0ClearRec else clearOfRec x)) s) = _
  rw [if_neg hx]; exact congrArg _ (takeEvent_run h _ _)
theorem exec_coverOpen (c : Cover) : exec (.coverOpen c) s = .next (openCover c (modPins (Pins.setCover c true) s)) :=
  congrArg _ (takeEvent_run h _ _)
theorem exec_coverClose (c : Cover) : exec (.coverClose c) s = .next (closeCover c (modPins (Pins.setCover c false) s)) :=
  congrArg _ (takeEvent_run h _ _)
theorem exec_towerOpen :
    exec .towerOpen s = .next (paceTest (modShuttle Shuttle.suspend (notify (.cover .tower true)
      (modPins (fun p => { p with tower := true }) s)))) := congrArg _ (takeEvent_run h _ _)
theorem exec_towerClose :
    exec .towerClose s = .next (resumeShuttle (paceTest (modShuttle (fun h => { h with suspended := false })
      (notify (.cover .tower false) (modPins (fun p => { p with tower := false }) s))))) := congrArg _ (takeEvent_run h _ _)
theorem exec_binDoorOpen (b : Fin 24) :
    exec (.binDoorOpen b) s = .next (modBin b Bin.openDoor (modPins (Pins.setDoor b true) s)) :=
  congrArg _ (takeEvent_run h _ _)
theorem exec_binDoorClose (b : Fin 24) :
    exec (.binDoorClose b) s = .next (closeDoor b (modPins (Pins.setDoor b false) s)) := congrArg _ (takeEvent_run h _ _)
theorem exec_binPaperPresent (b : Fin 24) : exec (.binPaperPresent b) s =
    .next (modBin b (fun q => { q with paper := true }) (modPins (Pins.setBinPaper b true) s)) :=
  congrArg _ (takeEvent_run h _ _)
theorem exec_binPaperAbsent (b : Fin 24) : exec (.binPaperAbsent b) s =
    .next (modBin b (fun q => { q with paper := false }) (modPins (Pins.setBinPaper b false) s)) :=
  congrArg _ (takeEvent_run h _ _)
theorem exec_compilerPaperPresent (x : CompilerId) : exec (.compilerPaperPresent x) s =
    .next (modComp x (fun c => { c with paper := true }) (modPins (Pins.setCompPaper x true) s)) :=
  congrArg _ (takeEvent_run h _ _)
theorem exec_compilerPaperAbsent (x : CompilerId) : exec (.compilerPaperAbsent x) s =
    .next (leaveTest (endRunningTransfer x (modComp x (fun c => { c with paper := false })
      (modPins (Pins.setCompPaper x false) s)))) := congrArg _ (takeEvent_run h _ _)
theorem exec_shelfEmpty : exec .shelfEmpty s =
    .next (targetEvent { modPins (fun p => { p with shelfEmpty := true }) s with
      shelf := { height := 0, count := 0, fullMark := false, readsEmpty := true } }) := congrArg _ (takeEvent_run h _ _)
theorem exec_shelfNotEmpty : exec .shelfNotEmpty s =
    .next { modPins (fun p => { p with shelfEmpty := false }) s with shelf := { s.shelf with readsEmpty := false } } :=
  congrArg _ (takeEvent_run h _ _)
theorem exec_shuttleHome (v : Bool) : exec (.shuttleHome v) s =
    .next (modShuttle (fun h => { h with home := v }) (modPins (fun p => { p with home := v }) s)) :=
  congrArg _ (takeEvent_run h _ _)

/-- POSITION_REACHED with no move, and in FAULT, is ignored (R131). -/
theorem exec_positionReached_ignored (hm : s.shuttle.move = none ∨ s.shuttle.state = .fault) :
    exec .positionReached s = .next s := by
  show Host.Outcome.next (takeEvent id _ s) = _
  rw [takeEvent_run h]
  show Host.Outcome.next (match s.shuttle.move with
    | none => s
    | some m => if s.shuttle.state = ShuttleState.fault then s
      else if s.shuttle.suspended then modShuttle (fun h => { h with reachedMark := true }) s else moveEnd m s) = _
  rcases hm with hm | hm
  · rw [hm]
  · split
    · rfl
    · rw [if_pos hm]

/-- POSITION_REACHED of a move (R127, R129, R132). -/
theorem exec_positionReached {m : Move} (hm : s.shuttle.move = some m) (hf : s.shuttle.state ≠ .fault) :
    exec .positionReached s =
      .next (if s.shuttle.suspended then modShuttle (fun h => { h with reachedMark := true }) s else moveEnd m s) := by
  show Host.Outcome.next (takeEvent id _ s) = _
  rw [takeEvent_run h]
  show Host.Outcome.next (match s.shuttle.move with
    | none => s
    | some m => if s.shuttle.state = ShuttleState.fault then s
      else if s.shuttle.suspended then modShuttle (fun h => { h with reachedMark := true }) s else moveEnd m s) = _
  rw [hm]; exact congrArg _ (if_neg hf)

/-- STROKE_REPORT with no stroke in progress is ignored (R104). -/
theorem exec_strokeReport_ignored (x : CompilerId) (f : Bool) (hc : (s.comp x).close.any (fun p => p.report.isSome) = false) :
    exec (.strokeReport x f) s = .next s := by
  show Host.Outcome.next (takeEvent id _ s) = _
  rw [takeEvent_run h]
  show Host.Outcome.next (match (s.comp x).close with
    | none => s
    | some p => if p.report.isNone then s else if f then strokeFormed x s else strokeNotFormed x p s) = _
  split
  · rfl
  · rename_i p e
    rw [e] at hc
    rw [if_pos (by simpa using hc)]

/-- STROKE_REPORT of the stroke in progress (R104). -/
theorem exec_strokeReport (x : CompilerId) (f : Bool) {p : CloseProgress} {d : Tick} (hc : (s.comp x).close = some p)
    (hr : p.report = some d) :
    exec (.strokeReport x f) s = .next (if f then strokeFormed x s else strokeNotFormed x p s) := by
  show Host.Outcome.next (takeEvent id _ s) = _
  rw [takeEvent_run h]
  show Host.Outcome.next (match (s.comp x).close with
    | none => s
    | some p => if p.report.isNone then s else if f then strokeFormed x s else strokeNotFormed x p s) = _
  rw [hc]; exact congrArg _ (if_neg (by simp [hr]))

end

/-! ## Notices and the pace test -/

@[simp] theorem notify_shuttle (b : NoticeBody) (s : State) : (notify b s).shuttle = s.shuttle := by
  unfold notify; repeat' split
  all_goals rfl
@[simp] theorem notify_bins (b : NoticeBody) (s : State) : (notify b s).bins = s.bins := by
  unfold notify; repeat' split
  all_goals rfl
@[simp] theorem notify_now (b : NoticeBody) (s : State) : (notify b s).now = s.now := by
  unfold notify; repeat' split
  all_goals rfl
@[simp] theorem notify_runs (b : NoticeBody) (s : State) : (notify b s).runs = s.runs := by
  unfold notify; repeat' split
  all_goals rfl
@[simp] theorem notify_sets (b : NoticeBody) (s : State) : (notify b s).sets = s.sets := by
  unfold notify; repeat' split
  all_goals rfl
@[simp] theorem notify_latched (b : NoticeBody) (s : State) : (notify b s).latched = s.latched := by
  unfold notify; repeat' split
  all_goals rfl
@[simp] theorem notify_tracker (b : NoticeBody) (s : State) : (notify b s).tracker = s.tracker := by
  unfold notify; repeat' split
  all_goals rfl
@[simp] theorem notify_queue (b : NoticeBody) (s : State) : (notify b s).queue = s.queue := by
  unfold notify; repeat' split
  all_goals rfl
@[simp] theorem notify_comp (b : NoticeBody) (s : State) (x : CompilerId) : (notify b s).comp x = s.comp x := by
  unfold notify; repeat' split
  all_goals rfl
@[simp] theorem notify_pins (b : NoticeBody) (s : State) : (notify b s).pins = s.pins := by
  unfold notify; repeat' split
  all_goals rfl

@[simp] theorem paceTest_shuttle (s : State) : (paceTest s).shuttle = s.shuttle := by
  simp only [paceTest]; repeat' split
  all_goals simp
@[simp] theorem paceTest_bins (s : State) : (paceTest s).bins = s.bins := by
  simp only [paceTest]; repeat' split
  all_goals simp
@[simp] theorem paceTest_now (s : State) : (paceTest s).now = s.now := by
  simp only [paceTest]; repeat' split
  all_goals simp
@[simp] theorem paceTest_latched (s : State) : (paceTest s).latched = s.latched := by
  simp only [paceTest]; repeat' split
  all_goals simp
@[simp] theorem paceTest_runs (s : State) : (paceTest s).runs = s.runs := by
  simp only [paceTest]; repeat' split
  all_goals simp
@[simp] theorem paceTest_sets (s : State) : (paceTest s).sets = s.sets := by
  simp only [paceTest]; repeat' split
  all_goals simp
@[simp] theorem paceTest_tracker (s : State) : (paceTest s).tracker = s.tracker := by
  simp only [paceTest]; repeat' split
  all_goals simp

/-! ## What a notice and a target selection write -/

theorem notify_eq (b : NoticeBody) (s : State) : notify b s = { s with link := (notify b s).link } := by
  unfold notify; repeat' split
  all_goals rfl
theorem fillActive_eq (p : Packet) (s : State) :
    fillActive p s = { s with bins := (fillActive p s).bins, link := (fillActive p s).link } := by
  unfold fillActive
  split; · rfl
  split
  · rw [notify_eq]; rfl
  · rfl
theorem spill_eq (p : Packet) (s : State) :
    spill p s = { s with bins := (spill p s).bins, runs := (spill p s).runs, link := (spill p s).link } := by
  have f := fillActive_eq p s
  unfold spill; dsimp only; generalize fillActive p s = t at f ⊢; rw [f]
  repeat' split
  all_goals rfl
/-- A target selection writes bins, runs and the notices' link only (R125). -/
theorem selectTarget_eq (p : Packet) (s : State) : (selectTarget p s).1 =
    { s with bins := (selectTarget p s).1.bins, runs := (selectTarget p s).1.runs, link := (selectTarget p s).1.link } := by
  unfold selectTarget; dsimp only; repeat' split
  · rfl
  · exact spill_eq p s
  · exact spill_eq p s
  · exact spill_eq p s

/-! ## A record's route and a set's key -/

theorem routeAt_modRec (i : Nat) (f : PathRec → PathRec) (s : State) :
    ((modRec i f s).tracker.path[i]?).map (·.route) = (s.tracker.path[i]?).map (fun r => (f r).route) := by
  simp [modRec, modTracker, Function.comp_def]
/-- A record found for a set is of that set. -/
theorem getSet_key {s : State} {k : SetKey} {q : SetRec} (h : s.getSet k = some q) : q.key = k := by
  unfold State.getSet at h; rw [List.findSome?_eq_some_iff] at h
  obtain ⟨_, o, _, _, h, _⟩ := h
  cases o with
  | none => simp at h
  | some z => simp at h; obtain ⟨a, b⟩ := h; rw [← b]; exact a

/-! ## Another bin -/

theorem getBin_modBin_ne {s : State} {b c : Fin 24} (f : Bin → Bin) (h : c ≠ b) :
    (modBin b f s).getBin c = s.getBin c := by
  have : b.val ≠ c.val := by omega
  simp [State.getBin, modBin, List.getD_eq_getElem?_getD, this]

end Sys2Proof.Machine
end

