-- ==== Sys2Proof/Machine/Drives.lean ====
section
/-! DEFINITION. The drive outputs of the part (spec/00 section 8), read from the state: no command changes a drive but through
the state it is computed from. -/

namespace Sys2Proof.Machine

/-- What the transport motors do (R63). -/
inductive MotorDrive where
  | stopped | comingToSpeed | atZoneSpeeds
  deriving DecidableEq, Repr

/-- The transport motors are driven from the transport state (R63). -/
def transportDrive (s : State) : MotorDrive :=
  match s.tracker.transport with
  | .off => .stopped
  | .spinup => .comingToSpeed
  | .run => .atZoneSpeeds
  | .halt => .stopped
  | .recover => .stopped

/-- The jogger of a compiler runs (R102, R112). -/
def joggerRuns (s : State) (x : CompilerId) : Bool := (s.comp x).close.any (fun p => p.jogEnd.isSome)

/-- The stapler of a compiler drives a stroke at this position (R103). -/
def stapleStroke (s : State) (x : CompilerId) : Option Nat :=
  (s.comp x).close.bind (fun p => if p.report.isSome then some (p.made + 1) else none)

/-- The ejector of a compiler is driven toward this side: NONE is straight out (R107, R112). -/
def ejectorDrive (s : State) (x : CompilerId) : Option Side :=
  let c := s.comp x
  if c.state = .transfer ∧ c.transfer.isSome = true then c.packet.map (·.side) else none

/-- The level the shuttle is commanded to; absent when its drive stands (R126 to R133). -/
def shuttleDrive (s : State) : Option Nat :=
  s.shuttle.move.bind (fun m => if m.timeout.isSome then some m.dest else none)

/-- The drop drive runs (R128, R132). -/
def dropDrive (s : State) : Bool := s.shuttle.dropEnd.isSome

end Sys2Proof.Machine
end

