-- ==== Sys2Proof/WellFormed.lean ====
section
/-! DEFINITION. Which terms of Instr spell a command of the part: a frame of the row's kind, a sensor the row names, a
place of the path table. exec is total; on an ill-formed term it does what the frame's bytes or the event say. -/

namespace Sys2Proof

/-- A payload that a frame can carry: 0 to 120 bytes (9.2). -/
def Instr.payloadOk (p : List Byte) : Bool := decide (p.length ≤ 120)

/-- The payload is `n` bytes long and its last byte, the action or the restart kind, is `v` (11.3). -/
def Instr.endsWith (p : List Byte) (n : Nat) (v : Byte) : Bool := p.length == n && p.getD (n - 1) 0 == v

/-- Well-formedness of a command. Of the two rows of one request kind, IN and PATH take the frames that spell their
action or restart kind (code 1, 11.1); OUT and FULL take every other frame of the kind, malformed ones among them. -/
def Instr.wellFormed : Instr → Bool
  | .resetRelease => true
  | .profileLoadEnd => true
  | .openRun _ p => payloadOk p
  | .abortRun _ p => payloadOk p
  | .abortSet _ p => payloadOk p
  | .announce _ p => payloadOk p
  | .withdraw _ p => payloadOk p
  | .resume _ p => payloadOk p
  | .recoveryQuery _ p => payloadOk p
  | .readTable _ p => payloadOk p
  | .status _ p => payloadOk p
  | .setParameter _ p => payloadOk p
  | .getParameter _ p => payloadOk p
  | .binServiceOut _ p => payloadOk p && !endsWith p 4 1
  | .binServiceIn _ p => endsWith p 4 1
  | .compilerServiceOut _ p => payloadOk p && !endsWith p 2 1
  | .compilerServiceIn _ p => endsWith p 2 1
  | .noticeMask _ p => payloadOk p
  | .restartFull _ p => payloadOk p && !endsWith p 1 1
  | .restartPath _ p => endsWith p 1 1
  | .unknownRequest k _ p => payloadOk p && !(decide (1 ≤ k.toNat) && decide (k.toNat ≤ 15))
  | .frameDiscard _ => true
  | .interByteTimeout => true
  | .txFrameEnd => true
  | .restartFullTakeEffect => true
  | .s0Lead => true
  | .s0Clear => true
  | .sensorLead x => x != .s0
  | .sensorClear x => x != .s0
  | .coverOpen _ => true
  | .coverClose _ => true
  | .spinupEnd => true
  | .idleExpiry => true
  | .entryLate => true
  | .sheetMissing => true
  | .guardEnd => true
  | .slipStage i => decide (i < Config.pathPlaces)
  | .lateJamStage i => decide (i < Config.pathPlaces)
  | .clearDeadlineExpiry i => decide (i < Config.pathPlaces)
  | .releaseSpacingEnd => true
  | .settleEnd _ => true
  | .jogEnd _ => true
  | .strokeReport _ _ => true
  | .reportTimerExpiry _ => true
  | .compilerPaperAbsent _ => true
  | .transferTimerExpiry _ => true
  | .compilerPaperPresent _ => true
  | .cartridgeInserted _ => true
  | .cartridgeRemoved _ => true
  | .positionReached => true
  | .dropEnd => true
  | .moveTimeout => true
  | .shuttleHome _ => true
  | .towerOpen => true
  | .towerClose => true
  | .binDoorOpen _ => true
  | .binDoorClose _ => true
  | .binPaperPresent _ => true
  | .binPaperAbsent _ => true
  | .shelfEmpty => true
  | .shelfNotEmpty => true
  | .byteTaken _ => true

end Sys2Proof
end

