-- ==== Sys2Proof/Tests/Slice0.lean ====
section
/-! SUPPORT. The tests of the model: an ill-formed term for each check of WellFormed, figures the manual prints, small steps,
and for every statement of the obligations that has hypotheses a state and operands that meet them. -/

namespace Sys2Proof.Tests

open Sys2Proof Sys2Proof.Machine

/-! ## Ill-formed terms -/

/-- A payload longer than any frame can carry. -/
def tooLong : List Byte := List.replicate 121 0

theorem test_payload_of_121_bytes_is_refused :
    (Instr.openRun 0 tooLong).wellFormed = false ∧ (Instr.abortRun 0 tooLong).wellFormed = false ∧
      (Instr.abortSet 0 tooLong).wellFormed = false ∧ (Instr.announce 0 tooLong).wellFormed = false ∧
      (Instr.withdraw 0 tooLong).wellFormed = false ∧ (Instr.resume 0 tooLong).wellFormed = false ∧
      (Instr.recoveryQuery 0 tooLong).wellFormed = false ∧ (Instr.readTable 0 tooLong).wellFormed = false ∧
      (Instr.status 0 tooLong).wellFormed = false ∧ (Instr.setParameter 0 tooLong).wellFormed = false ∧
      (Instr.getParameter 0 tooLong).wellFormed = false ∧ (Instr.noticeMask 0 tooLong).wellFormed = false ∧
      (Instr.binServiceOut 0 tooLong).wellFormed = false ∧ (Instr.compilerServiceOut 0 tooLong).wellFormed = false ∧
      (Instr.restartFull 0 tooLong).wellFormed = false ∧ (Instr.unknownRequest 0x20 0 tooLong).wellFormed = false := by
  decide +kernel
theorem test_service_rows_are_told_apart :
    (Instr.binServiceOut 0 [1, 0, 0, 1]).wellFormed = false ∧ (Instr.binServiceIn 0 [1, 0, 0, 0]).wellFormed = false ∧
      (Instr.compilerServiceOut 0 [1, 1]).wellFormed = false ∧ (Instr.compilerServiceIn 0 [1, 0]).wellFormed = false ∧
      (Instr.restartFull 0 [1]).wellFormed = false ∧ (Instr.restartPath 0 [0]).wellFormed = false := by decide
theorem test_known_kind_is_no_unknown_request :
    (Instr.unknownRequest 0x01 0 []).wellFormed = false ∧ (Instr.unknownRequest 0x0F 0 []).wellFormed = false ∧
      (Instr.unknownRequest 0x00 0 []).wellFormed = true ∧ (Instr.unknownRequest 0x10 0 []).wellFormed = true := by decide
theorem test_S0_has_rows_of_its_own :
    (Instr.sensorLead .s0).wellFormed = false ∧ (Instr.sensorClear .s0).wellFormed = false := by decide
theorem test_path_place_of_12_is_refused :
    (Instr.slipStage 12).wellFormed = false ∧ (Instr.lateJamStage 12).wellFormed = false ∧
      (Instr.clearDeadlineExpiry 12).wellFormed = false ∧ (Instr.slipStage 11).wellFormed = true := by decide

/-! ## Small states -/

/-- Outside the profile load, all else as at reset. -/
def base : State := { State.reset with loading := false }

/-- The transport in a given state. -/
def inTransport (t : Transport) : State := { base with tracker := { base.tracker with transport := t } }

def key0 : SetKey := { run := 0, set := 1 }
def sheet0 : Sheet := { key := key0, page := 1, pages := 1, media := 0, length := 297 }
def entry0 : Entry := { tag := 5, sheet := sheet0, reprint := false, void := false, late := false }
def run0 : Run :=
  { label := List.replicate 8 0x41, declared := 2, pattern := .corner, requireStaple := false, mask := 1, order := .ascending,
    policy := .keepPartial, offset := .alternate, active := none, owned := [], delivered := 0, aborted := 0, done := 0,
    nextSide := .left, state := .opened }
def set0 : SetRec :=
  { key := key0, pages := 1, next := 2, announced := 1, confirmed := 1, inCompiler := 0, assigned := some (.a, .current),
    thickness := 100, aborted := false, reprinted := false, divertPage := none, divertCause := none, state := .fed }
def packet0 : Packet :=
  { seq := 1, key := key0, sheets := 1, thickness := 100, stapled := false, side := .left, flags := {} }
def noTicks : PerSensor (Option Tick) := PerSensor.all none
/-- A CONFIRMED record that has passed the sensors of `lead` and `clear`. -/
def recOf (route : Route) (lead clear : PerSensor (Option Tick)) : PathRec :=
  { tag := 5, kind := .confirmed, sheet := some sheet0, route := route, reason := none, lead := lead, clear := clear,
    leadDl := none, clearDl := none, slip := false, parked := false }
/-- In RUN with one record in the path table. -/
def withRec (r : PathRec) : State :=
  { base with tracker := { base.tracker with transport := .run, path := [r] } }
/-- With a run, a set and compiler A as given. -/
def withComp (c : Compiler) : State :=
  { base with runs := base.runs.set 0 (some run0), sets := base.sets.set 0 (some set0), compA := c }
def withShuttle (h : Shuttle) : State := { base with shuttle := h }
def withLink (l : Link) : State := { base with link := l }
def withRx (rx : Receiver) : State := withLink { base.link with rx := rx }
def withBin (q : Bin) : State := { base with bins := base.bins.set 0 q }
def closing (p : CloseProgress) : Compiler :=
  { Compiler.initial with state := .closing, close := some p, packet := some packet0, current := some key0, staples := 1 }
def stroke : CloseProgress :=
  { planned := 1, made := 0, retry := false, retries := 0, jogEnd := none, report := none, noMore := false }

/-! ## Figures the manual prints -/

/-- The check value of the link's CRC. -/
theorem test_crc_check_value : crc16 [0x31, 0x32, 0x33, 0x34, 0x35, 0x36, 0x37, 0x38, 0x39] = 0x29B1#16 := by decide +kernel
/-- The travels of the table of R50. -/
theorem test_travels_at_the_defaults : travelsOf Config.pathDefaults = [2250, 3500, 3750, 3250, 7500, 3000, 5000] := by decide
/-- The defaults lie in the ranges of R170. -/
theorem test_defaults_are_in_range : ∀ id ∈ List.range 114, ∀ a ∈ (paramOf id).toList, a.clamp a.default = a.default := by
  decide
theorem test_core_is_the_machine : core.reset = State.reset ∧ core.step = step := ⟨rfl, rfl⟩
theorem test_no_word_spells_a_command : decodeTableWord 8 0xD5 = none ∧ base.withFetchWord 8 0xD5 = base := ⟨rfl, rfl⟩

/-! ## Small steps -/

/-- The profile load of a blank memory ends in OFF with every group bad and a Profile Fault notice on the wire. -/
theorem test_blank_profile_load :
    (endLoad State.reset).profileMarks = List.replicate 5 true ∧ (endLoad State.reset).tracker.transport = .off ∧
      (endLoad State.reset).link.wire.isSome = true ∧ (endLoad State.reset).compA.staples = 5000 := by decide
/-- An open cover and a covered sensor at start-up. -/
theorem test_power_on_check :
    (endLoad { State.reset with
      pins := { Pins.quiet with top := true, sensors := Pins.quiet.sensors.set .s4 true } }).tracker.causes =
      { jam := true, coverTop := true } := by decide
/-- The first timer of the machine: the load that must end by tick 2,500. -/
theorem test_load_limit_is_queued :
    (tick { State.reset with now := 2499 }).pending = [.profileLoadEnd] ∧ (tick State.reset).pending = [] := by decide

/-! ## Hypotheses that are met -/

theorem taken_base : RequestsTaken base := ⟨rfl, rfl, by decide⟩
theorem taken_in (t : Transport) : RequestsTaken (inTransport t) := ⟨rfl, rfl, Nat.zero_lt_succ _⟩
theorem lawful_start : DeviceLaw (endLoad State.reset) := sound_iff.1 (sound_endLoad (sound_powerOn _ _ _) rfl)

theorem test_met_EmptyQueueLetsATickPass : State.reset.pending = [] := rfl
theorem test_met_EveryCommandCompletes :
    Instr.s0Lead ≠ .resetRelease ∧ Instr.s0Lead ≠ .restartFullTakeEffect ∧ Instr.s0Lead ≠ .txFrameEnd ∧
      Instr.s0Lead ≠ .profileLoadEnd := by decide
theorem test_met_StepKeepsTheDeviceLaw :
    DeviceLaw (endLoad State.reset) ∧ step (endLoad State.reset) = .next (tick (endLoad State.reset)) :=
  ⟨lawful_start, rfl⟩
theorem test_met_LoadTakesNoMechanismEvent :
    State.reset.loading = true ∧ pinsOf .towerOpen = some (fun p => { p with tower := true }) := ⟨rfl, rfl⟩
theorem test_met_LoadEndBringsTheBlocksUp :
    (State.reset.loading = true ∧ LoadLaw State.reset ∧ State.reset.profileMarks.length = 5) ∧ base.loading = false :=
  ⟨⟨rfl, ⟨rfl, rfl, rfl, rfl, rfl, rfl, rfl⟩, rfl⟩, rfl⟩
theorem test_met_LoadedValuesLieInTheirRanges :
    headerBad [] = true ∧ 24 < Group.path.ranges.length ∧ 1 < Group.link.ranges.length := by decide
theorem test_met_PathLatchHoldsTheFixes : base.staged.path.length = 25 ∧ (24 : Nat) ≠ 1 ∧ (24 : Nat) ≠ 4 ∧ (24 : Nat) ≠ 15 := by
  decide
theorem test_met_RestartPathReloadsTwoGroups :
    (RequestsTaken (inTransport .run) ∧ (inTransport .run).tracker.transport ≠ .off ∧
      (inTransport .run).tracker.transport ≠ .recover) ∧
    (RequestsTaken base ∧ base.tracker.transport = .off) ∧
    (RequestsTaken (inTransport .recover) ∧ (inTransport .recover).tracker.transport = .recover) :=
  ⟨⟨taken_in _, by decide, by decide⟩, ⟨taken_base, rfl⟩, taken_in _, rfl⟩
/-- A Restart FULL that waits for the frame on the wire. -/
def waiting : State := withLink { base.link with restartWait := true, wire := some [0] }
theorem test_met_RestartFullWaitsForItsReply :
    RequestsTaken base ∧ (waiting.link.restartWait = true ∧ waiting.link.replies = [] ∧ waiting.link.wire ≠ none) ∧
      base.link.restartWait = false := ⟨taken_base, by decide, rfl⟩
def reply0 : Reply := { kind := 6, seq := 0, status := .ok, reason := none, body := [0] }
def notice0 : Notice := { stamp := 0, tick := 0, body := .ready }
theorem test_met_RequestsAreGated :
    requestOf (.resume 0 []) = some (6, 0, []) ∧ waiting.link.restartWait = true ∧
    (base.link.restartWait = false ∧ 4 ≤ (withLink { base.link with replies := List.replicate 4 reply0 }).link.replies.length) ∧
    (State.reset.link.restartWait = false ∧ State.reset.link.replies.length < 4 ∧ State.reset.loading = true) ∧
    (requestOf (.unknownRequest 0x10 0 []) = some (0x10, 0, []) ∧ payloadLength 0x10 = none ∧ payloadLength 0x00 = none) ∧
    (requestOf (.resume 0 [0]) = some (6, 0, [0]) ∧ payloadLength 6 = some 0 ∧ [(0 : Byte)].length ≠ 0) := by decide
theorem test_met_RequestsAreGated_taken : RequestsTaken base := taken_base
theorem test_met_NoticesAreMaskedDroppedOrStamped :
    State.reset.loading = true ∧
    (base.loading = false ∧ (0#23).getLsbD (NoticeBody.ready.kind - 1) = false) ∧
    (base.latched.mask.getLsbD (NoticeBody.ready.kind - 1) = true ∧
      base.latched.mask.getLsbD ((NoticeBody.profileFault []).kind - 1) = true) ∧
    16 ≤ (List.replicate 16 notice0).length ∧ ((List.replicate 15 notice0).length < 16 ∧ waiting.link.wire ≠ none) ∧
    (base.link.notices = [] ∧ base.link.replies = [] ∧ base.link.wire = none) := by decide
theorem test_met_FrameEndSendsRepliesFirst :
    let l := { base.link with wire := some [0] }
    (l.restartWait = false ∧ l.wire ≠ none ∧ l.replies = [] ∧ l.notices = []) ∧
      (withLink { l with replies := [reply0] }).link.replies = [reply0] ∧
      (withLink { l with notices := [notice0] }).link.notices = [notice0] := by decide
def rxIn (st : RxState) (len : Nat) (body crc : List Byte) : Receiver :=
  { state := st, len := len, body := body, crc := crc, deadline := some 0 }
theorem test_met_ReceiverTakesAndDiscards :
    (base.link.rx.state = .hunt ∧ (0xD4 : Byte) ≠ 0xD5#8) ∧ (rxIn .length 0 [] []).state = .length ∧
    (2 ≤ (2 : Byte).toNat ∧ (122 : Byte).toNat ≤ 122) ∧ ((1 : Byte).toNat < 2 ∧ 122 < (123 : Byte).toNat) ∧
    (rxIn .body 2 [6] []).state = .body ∧
    ((rxIn .check 2 [6, 0] [0]).crc = [0] ∧ [(0 : Byte), 0] ≠ le 2 (crc16 [2, 6, 0]).toNat) ∧
    reached (withRx (rxIn .body 2 [] [])).now 0 = true := by decide +kernel
theorem test_met_GoodFrameIsItsRequest :
    requestOf (.resume 0 []) = some (6, 0, []) ∧
      [(le 2 (crc16 [2, 6, 0]).toNat).getD 0 0, (le 2 (crc16 [2, 6, 0]).toNat).getD 1 0] = le 2 (crc16 [2, 6, 0]).toNat := by
  decide +kernel
/-- An Open Run of run 0 with bin 0 in its mask. -/
def openPayload (run mask : Byte) : List Byte := run :: List.replicate 8 0x41 ++ [2, 1, 0, mask, 0, 0, 0, 0, 0]
theorem test_met_OpenRunCreatesTheRecord :
    (openPayload 0 1).length = 18 ∧ openRunFields (openPayload 0 1) = some (0, run0) ∧
      openRunFields (openPayload 16 1) = none ∧ openRunFields (openPayload 0 0) = none ∧
      (openRunFields (openPayload 15 1)).isSome = true ∧ (withComp Compiler.initial).getRun 0 ≠ none ∧
      (base.getRun 0 = none ∧ firstBin run0 (fun b => (base.getBin b).state == .free) = some 0) ∧
      (firstBin run0 (fun b => ((withBin { Bin.initial with state := .held }).getBin b).state == .free) = none ∧
        (withBin Bin.initial).runs.length = 16) := by decide
theorem test_met_AbortRunEndsTheRun :
    16 ≤ (16 : Byte).toNat ∧ (15 : Byte).toNat = (15 : Fin 16).val ∧ base.getRun 15 = none ∧
      (withComp Compiler.initial).getRun 0 = some run0 ∧ run0.state = .opened ∧
      ({ run0 with state := .aborted } : Run).state ≠ .opened := by decide
theorem test_met_AbortSetClosesOrMarks :
    (withComp Compiler.initial).getRun 0 = some run0 ∧ (2 : Byte).toNat ≤ run0.declared ∧ run0.declared < (3 : Byte).toNat ∧
      run0.isDone 2 = false ∧ (withComp Compiler.initial).getSet { run := 0, set := 2 } = none ∧
      (withComp Compiler.initial).getSet key0 = some set0 ∧ set0.aborted = false ∧
      ({ run0 with done := doneBit 255 } : Run).isDone 255 = true := by decide
/-- An Announce of page 1 of 1 of set 1 of run 0 with tag 5. -/
def announcePayload (tag : Byte) : List Byte := [tag, 0, 0, 1, 1, 1, 0, 0x29, 1, 0]
/-- A state with run 0 and nothing else, in a given transport state. -/
def withRun (t : Transport) : State := { inTransport t with runs := base.runs.set 0 (some run0) }
theorem test_met_AnnounceJoinsTheTail :
    announceFields (announcePayload 5) = some (5, sheet0, false) ∧ announceRefusal (withRun .off) 5 sheet0 false = none ∧
      announceRefusal (withRun .run) 5 sheet0 false = none ∧ (announcePayload 5).length = 10 := by decide
theorem test_met_RefusedAnnounceChangesNothing :
    announceFields (announcePayload 0) = none ∧ base.getRun sheet0.key.run = none ∧
      announceRefusal (withRun .halt) 5 sheet0 false = some .halted ∧ announceRefusal (withRun .off) 5 sheet0 false = none := by
  decide
theorem test_met_WithdrawTakesTheTail :
    fieldLe [0, 0] 0 2 = 0 ∧ fieldLe [5, 0] 0 2 ≠ 0 ∧
      tagInMachine (withRec (recOf .unset noTicks noTicks)) 5 = true ∧ tagInMachine base 5 = false ∧
      (∀ e ∈ base.queue, e.tag ≠ 5) ∧
      ({ base with queue := [entry0] } : State).queue.findIdx? (fun e => e.tag == 5) = some 0 := by decide
theorem test_met_HeadWindowAndGuardEnd :
    let s := { base with queue := [entry0], window := some 0, guard := some 60000, now := 60000 }
    s.queue = [entry0] ∧ entry0.late = false ∧ reached s.now (after 0 s.wEntry) = true ∧
      reached s.now (after 0 (2 * s.wEntry)) = true ∧ reached 59999 (after 0 (2 * s.wEntry)) = false ∧
      reached s.now 60000 = true := by decide
theorem test_met_S0LeadMatchesTheHead :
    (inTransport .run).loading = false ∧ (inTransport .run).tracker.transport = .run ∧
    12 ≤ (List.replicate 12 (recOf .unset noTicks noTicks)).length ∧
    ((inTransport .run).tracker.path.length < 12 ∧ (inTransport .run).guard = none ∧ (inTransport .run).queue = []) ∧
    ({ base with guard := some 1 } : State).guard ≠ none ∧
    (({ base with queue := [entry0] } : State).queue = [entry0] ∧ entry0.void = false ∧
      ({ entry0 with void := true } : Entry).void = true) := by decide
/-- A TENTATIVE record under S0 since tick 0. -/
def atS0 : PathRec := { recOf .unset (noTicks.set .s0 (some 0)) noTicks with kind := .tentative }
theorem test_met_S0ClearConfirmsOrDemotes :
    coveringRec (withRec atS0) .s0 = some 0 ∧ (withRec atS0).tracker.path[0]? = some atS0 ∧ atS0.sheet = some sheet0 ∧
      measuredLength (withRec atS0) 0 3713 = 297 ∧ 297 ≤ sheet0.length + (withRec atS0).lTol ∧
      sheet0.length ≤ 297 + (withRec atS0).lTol ∧ sheet0.length + (withRec atS0).lTol < 304 ∧
      ({ atS0 with kind := .void } : PathRec).kind ≠ .tentative := by decide
theorem test_met_SpinupAndIdleEnd :
    let s := { base with tracker := { base.tracker with spinup := some 0, idle := some 0 } }
    s.tracker.spinup = some 0 ∧ s.tracker.idle = some 0 ∧ reached s.now 0 = true ∧ s.queue = [] ∧ s.tracker.path = [] := by
  decide
/-- A record that has passed S1 and S0, with a lead deadline at tick 100. -/
def toS2 : PathRec :=
  { recOf (.to .a) ((noTicks.set .s0 (some 0)).set .s1 (some 0)) (noTicks.set .s0 (some 0)) with
    leadDl := some { at_ := 100, sensor := .s2 } }
theorem test_met_LeadEventsMatchOrJam :
    (Sensor.s1 ≠ .s0 ∧ base.loading = false ∧ base.tracker.transport ≠ .run ∧ base.tracker.transport ≠ .halt) ∧
    ((inTransport .run).tracker.transport = .run ∧ (inTransport .run).tracker.path.findIdx? (candidate .s1) = none) ∧
    ((withRec { toS2 with clear := noTicks }).tracker.path.findIdx? (candidate .s2) = some 0 ∧
      ({ toS2 with clear := noTicks } : PathRec).clear.s0 = none) ∧
    (toS2.clear.s0 ≠ none ∧ toS2.leadDl = some { at_ := 100, sensor := .s2 } ∧
      earlier 0 (1000 - BitVec.ofNat 32 (withRec toS2).tEarly) = true) ∧
    ((withRec atS0).tracker.path.findIdx? (candidate .s1) = some 0 ∧ Sensor.s1 ≠ .s2 ∧ Sensor.s1 ≠ .s3 ∧
      (∀ d, atS0.leadDl = some d → earlier 0 (d.at_ - BitVec.ofNat 32 (withRec atS0).tEarly) = false)) := by
  refine ⟨by decide, by decide, by decide, by decide, by decide, by decide, by decide, ?_⟩
  intro d h; cases h
def onPurge (k : RecKind) (sh : Option Sheet) : PathRec :=
  { recOf .purge (noTicks.set .s3p (some 0)) noTicks with kind := k, sheet := sh }
theorem test_met_ClearEventsMoveOrLeave :
    coveringRec (inTransport .run) .s1 = none ∧
    coveringRec (withRec (recOf (.to .a) (noTicks.set .s4 (some 0)) noTicks)) .s4 = some 0 ∧
    coveringRec (withRec (recOf (.to .a) (noTicks.set .s5a (some 0)) noTicks)) .s5a = some 0 ∧
    coveringRec (withRec (recOf (.to .b) (noTicks.set .s5b (some 0)) noTicks)) .s5b = some 0 ∧
    coveringRec (withRec (onPurge .stray none)) .s3p = some 0 ∧ coveringRec (withRec (onPurge .void (some sheet0))) .s3p = some 0 ∧
    coveringRec (withRec (onPurge .confirmed (some sheet0))) .s3p = some 0 ∧ (0 + 1 ≠ base.purgeCapacity) ∧
    249 + 1 = base.purgeCapacity := by decide
theorem test_met_PathEventsInHaltClearTheHalt :
    (inTransport .halt).loading = false ∧ (inTransport .halt).tracker.transport = .halt ∧ base.tracker.transport = .off ∧
      (inTransport .spinup).tracker.transport = .spinup ∧ (inTransport .recover).tracker.transport = .recover := by decide
theorem test_met_PathEventsInHalt_law : RunningLaw (inTransport .halt) := by unfold RunningLaw TransportTimers CoversCaused Calm; decide
theorem test_met_HaltEmptiesThePathAndTheQueue :
    (inTransport .halt).tracker.transport = .halt ∧ (inTransport .run).tracker.transport ≠ .halt ∧
      (inTransport .recover).tracker.transport = .recover := by decide
theorem test_met_CoversHaltAndRelease : base.loading = false := rfl
def list0 : RecoveryList :=
  { entries := [{ key := key0, first := 1, last := 1, cause := .pathLoss }],
    halt := { cause := .jam, jam := some (.late, .s1), time := 0 }, overflow := false }
def halted (l : Option RecoveryList) : State := { inTransport .halt with recovery := l }
theorem test_met_HaltIsLeftWhenThreeThingsHold :
    ((halted (some list0)).tracker.transport = .halt ∧ (halted (some list0)).tracker.causes = {} ∧
      (halted (some list0)).recovery = some list0 ∧ list0.entries ≠ []) ∧
    ((∀ x : Sensor, (halted none).tracker.readings.get x = false) ∧
      (∀ x : CompilerId, ((halted none).comp x).state = .clearWait → ((halted none).comp x).paper = false) ∧
      (∀ l : RecoveryList, (halted none).recovery = some l → l.entries = [])) ∧
    ({ (inTransport .halt).tracker with causes := { jam := true } } : Tracker).causes ≠ {} := by
  refine ⟨by decide, ⟨?_, ?_, ?_⟩, by decide⟩
  · intro x; cases x <;> rfl
  · intro x h; cases x <;> rfl
  · intro l h; cases h
theorem test_met_DeadlineStagesSlipAndJam :
    (withRec toS2).tracker.path[0]? = some toS2 ∧ toS2.slip = false ∧ ({ toS2 with slip := true } : PathRec).slip = true ∧
      reached 500 (after 100 base.tSlip) = true ∧ reached 499 (after 100 base.tSlip) = false ∧
      reached 1600 (after 100 base.tJam) = true ∧ reached 100 100 = true := by decide
theorem test_met_TicksTravelsAndGaps :
    0 < base.zoneSpeed (zoneAfter (.to .a) .s2) ∧ 0 < base.pitch ∧ (5 - 7 : Tick).toInt ≤ 0 ∧ 0 ≤ (7 - 5 : Tick).toInt ∧
      (3000 ≤ 3 * 1000 ∧ base.pitch = 10000) ∧ (1 + 2) * 10000 < 30001 ∧ 30001 ≤ (1 + 3) * 10000 ∧
      (14 + 2) * 10000 < 170000 ∧ 170000 ≤ (14 + 3) * 10000 := by decide
theorem test_met_RouterChoosesTheEarlierCompiler :
    let out := { base with compA := { base.compA with state := .out } }
    let outB := { base with compB := { base.compB with state := .out } }
    let closing := { base with compA := { base.compA with state := .closing, jogStart := 0 } }
    let closingB := { base with compB := { base.compB with state := .closing, jogStart := 0 } }
    (canTake out run0 .a = false ∧ canTake outB run0 .b = false) ∧
    ({ run0 with pattern := .none } : Run).requireStaple = false ∧
    (canTake base run0 .a = true ∧ canTake base run0 .b = true ∧ freeEstimate base .a = freeEstimate base .b) ∧
    (canTake out run0 .b = true ∧ canTake outB run0 .a = true) ∧
    (canTake closingB run0 .a = true ∧ canTake closingB run0 .b = true ∧
      (freeEstimate closingB .a - freeEstimate closingB .b).toInt < 0) ∧
    (canTake closing run0 .a = true ∧ canTake closing run0 .b = true ∧
      (freeEstimate closing .b - freeEstimate closing .a).toInt < 0 ∧
      0 ≤ (freeEstimate closing .a - freeEstimate closing .b).toInt) := by decide
/-- A record of set 1 that has passed S2 on its way to compiler A. -/
def toS3 : PathRec := recOf (.to .a) (noTicks.set .s2 (some 0)) (noTicks.set .s0 (some 0))
/-- In RUN with the record, its set current in compiler A or not. -/
def gating (r : PathRec) (k : Option SetKey) : State := { withRec r with compA := { Compiler.initial with current := k } }
theorem test_met_DiverterAndGateDecide :
    ((gating toS3 (some key0)).tracker.path.findIdx? (candidate .s3) = some 0 ∧ tooEarly (gating toS3 (some key0)) toS3 = false ∧
      (gating toS3 (some key0)).buffer = [] ∧ compilerReady (gating toS3 (some key0)) toS3 = true) ∧
    (compilerReady (gating toS3 none) toS3 = false ∧ lastOfCurrent (gating toS3 none) toS3 = false) ∧
    (({ withRec toS2 with now := 100 } : State).tracker.path.findIdx? (candidate .s2) = some 0 ∧
      tooEarly { withRec toS2 with now := 100 } toS2 = false ∧ toS2.clear.s0 ≠ none) ∧
    (toS2.route.isCompiler = true ∧ toS2.key.any base.isDiverting = false ∧ overrunCount (withRec toS2) 0 < 3) ∧
    toS2.key.any ({ base with sets := base.sets.set 0 (some { set0 with state := .diverting }) } : State).isDiverting = true ∧
    3 ≤ overrunCount { base with tracker := { base.tracker with path := List.replicate 4 toS3 } } 0 ∧
    (onPurge .stray none).route.isCompiler = false := by decide
def parkedRec : PathRec := { toS3 with lead := toS3.lead.set .s3 (some 0), parked := true }
theorem test_met_SpacingEndReleasesTheHead :
    ({ base with router := { base.router with spacing := some 0 } } : State).router.spacing = some 0 ∧ reached 0 0 = true ∧
    base.buffer = [] ∧
    ((gating parkedRec (some key0)).router.spacing = none ∧
      (gating parkedRec (some key0)).tracker.path.findIdx? (·.parked) = some 0 ∧
      compilerReady (gating parkedRec (some key0)) parkedRec = true) ∧
    compilerReady (gating parkedRec none) parkedRec = false := by decide
def settling : Compiler :=
  { Compiler.initial with state := .gathering, current := some key0, count := 1, settle := some 0 }
theorem test_met_SettleEndStartsTheClose :
    ((withComp settling).comp .a).settle = some 0 ∧ reached 0 0 = true ∧ ((withComp settling).comp .a).current = some key0 ∧
      (withComp settling).getSet key0 = some set0 ∧ (withComp settling).getRun set0.key.run = some run0 ∧
      run0.offset = .alternate ∧ ({ run0 with offset := .none } : Run).offset = .none := by decide
def jogging : CloseProgress := { stroke with jogEnd := some 0 }
theorem test_met_JogEndTestsTheStapler :
    ((withComp (closing jogging)).comp .a).close = some jogging ∧ jogging.jogEnd = some 0 ∧ jogging.noMore = false ∧
      ({ jogging with planned := 0 } : CloseProgress).planned ≤ 0 ∧ jogging.made < jogging.planned ∧
      ((withComp { closing jogging with fault := true }).comp .a).fault = true ∧
      (closing jogging).fault = false ∧ ({ closing jogging with staples := 0 } : Compiler).staples = 0 ∧
      (closing jogging).staples ≠ 0 := by decide
def inStroke : CloseProgress := { stroke with report := some 0 }
theorem test_met_StrokeReportsAreTaken :
    ((withComp (closing jogging)).comp .a).close.any (fun p => p.report.isSome) = false ∧
      ((withComp (closing inStroke)).comp .a).close = some inStroke ∧ inStroke.report = some 0 ∧ inStroke.retry = false ∧
      ({ inStroke with retry := true } : CloseProgress).retry = true ∧
      ((withComp (closing inStroke)).comp .a).packet = some packet0 ∧ reached 0 0 = true := by decide
def transferring : Compiler :=
  { Compiler.initial with state := .transfer, transfer := some 0, packet := some packet0, current := some key0 }
theorem test_met_TransferEndsWithThePacketAboard :
    ((withComp transferring).comp .a).state = .transfer ∧ ((withComp transferring).comp .a).transfer = some 0 ∧
      ((withComp transferring).comp .a).packet = some packet0 ∧ ((withComp transferring).comp .a).current = some key0 ∧
      (base.comp .a).state ≠ .transfer ∧ reached 0 0 = true := by decide
theorem test_met_CartridgeEventsSetTheCount :
    base.loading = false ∧ (base.comp .a).staples = 0 ∧ ((withComp (closing jogging)).comp .a).staples ≠ 0 := by decide
theorem test_met_CompilerServiceTakesOutAndIn :
    (base.comp .a).state = .empty ∧ ({ base with compA := { base.compA with state := .out } } : State).compA.state = .out ∧
      ((withComp settling).comp .a).state ≠ .empty ∧ ((withComp settling).comp .a).state ≠ .out ∧
      ({ base.compA with paper := true } : Compiler).paper = true ∧ base.compA.paper = false := by decide
theorem test_met_ReadingEventsAndTheShelf : base.loading = false := rfl
theorem test_met_TargetsTakeAPacketByThreeTests :
    selectTarget packet0 base = (base, some .shelf) ∧ targetTakes base packet0 .shelf = true ∧
      ({ base.shuttle with target := some .shelf } : Shuttle).target = some .shelf := by decide
/-- A shuttle that moves to a target with packet 0 on board. -/
def carrying (t : Target) : Shuttle :=
  { Shuttle.initial with
    state := .moving, target := some t, packet := some packet0,
    move := some { leg := .outbound, origin := 0, dest := t.level, timeout := some 0 } }
def ownedBin (d : Nat) : State :=
  { withShuttle (carrying (.bin 0)) with
    bins := base.bins.set 0 { Bin.initial with state := .owned, owner := some 0, packets := List.replicate d packet0 } }
theorem test_met_ArrivalDropsThePacket :
    (ownedBin 39).loading = false ∧ (ownedBin 39).shuttle.suspended = false ∧ (ownedBin 39).shuttle.state = .moving ∧
      (ownedBin 39).shuttle.packet = some packet0 ∧ (ownedBin 39).shuttle.target = some (.bin 0) ∧
      targetTakes (ownedBin 39) packet0 (.bin 0) = true ∧ targetTakes (ownedBin 40) packet0 (.bin 0) = false ∧
      targetTakes (withShuttle (carrying .shelf)) packet0 .shelf = true ∧ Leg.outbound ≠ .return := by decide
def returning : Shuttle :=
  { Shuttle.initial with state := .returning, move := some { leg := .return, origin := 1, dest := 0, timeout := some 0 } }
theorem test_met_DropEndReturnsToTheDock :
    ({ Shuttle.initial with state := .dropping, dropEnd := some 0 } : Shuttle).dropEnd = some 0 ∧ reached 0 0 = true ∧
      ((withShuttle returning).loading = false ∧ (withShuttle returning).shuttle.suspended = false ∧
        (withShuttle returning).shuttle.state = .returning) := by decide
theorem test_met_MoveTimeoutFaultsTheShuttle :
    (withShuttle (carrying .shelf)).shuttle.move =
      some { leg := .outbound, origin := 0, dest := 13, timeout := some 0 } ∧ reached 0 0 = true ∧
      (carrying .shelf).packet = some packet0 ∧ returning.packet = none := by decide
theorem test_met_FaultIsLeftByACoverCycleAtHome :
    let h := { carrying .shelf with suspended := true }
    (h.suspended = true ∧ h.state ≠ .fault ∧ h.move.isSome = true) ∧
      ({ Shuttle.initial with state := .fault, home := true, cycleMark := true } : Shuttle).state = .fault ∧
      (Shuttle.initial.home = false ∧ Shuttle.initial.cycleMark = false) := by decide
theorem test_met_TowerSuspendsTheShuttle :
    base.loading = false ∧ base.shuttle.state = .docked ∧ (carrying .shelf).state = .moving ∧ returning.state = .returning ∧
      ({ carrying .shelf with move := none } : Shuttle).waiting = false ∧
      ({ carrying .shelf with move := none, waiting := true } : Shuttle).waiting = true ∧
      ({ carrying .shelf with reachedMark := true } : Shuttle).reachedMark = true ∧
      ({ Shuttle.initial with state := .dropping } : Shuttle).dropEnd = none := by decide
theorem test_met_DoorOpeningKeepsTheBin :
    base.loading = false ∧ base.bins.length = 24 ∧ (base.getBin 0).state ≠ .opened ∧ (1 : Fin 24) ≠ 0 ∧
      ((withBin (Bin.start true false)).getBin 0).state = .opened := by decide
theorem test_met_DoorClosingCollectsOrRestores :
    ((withBin (Bin.start true true)).getBin 0).state = .opened ∧
      ((withBin (Bin.start true true)).getBin 0).preOpen = some .held ∧
      ((withBin (Bin.start true true)).getBin 0).paper = true ∧ ((withBin (Bin.start true false)).getBin 0).paper = false ∧
      ((withBin (Bin.start true false)).getBin 0).preOpen = some .free ∧ (withBin (Bin.start true false)).bins.length = 24 ∧
      ownerOpen { withComp Compiler.initial with bins := (ownedBin 0).bins } 0 = true ∧ ownerOpen (ownedBin 0) 0 = false := by
  decide
theorem test_met_BinServiceTakesOutAndIn :
    (fieldLe [0, 0, 0, 0] 0 3 = 0 ∧ 1 < field [1, 0, 0, 2] 3 ∧ fieldLe [0, 0, 0x80, 1] 0 3 ≠ 0 ∧ field [0, 0, 0x80, 1] 3 = 1 ∧
      field [1, 0, 0, 0] 3 = 0) ∧
    (((withBin { Bin.initial with state := .out }).getBin 0).state = .out ∧
      ((withBin { Bin.initial with state := .out }).getBin 0).owner = none) ∧
    ownerOpen { withComp Compiler.initial with bins := (ownedBin 0).bins } 0 = true ∧
    ((withBin { Bin.initial with state := .out, owner := some 0 }).getBin 0).owner ≠ none ∧
    ownerOpen (withBin { Bin.initial with state := .out, owner := some 0 }) 0 = false ∧
    ((withBin { Bin.initial with state := .opened, preOpen := some .out }).getBin 0).preOpen = some .out ∧
    ((base.getBin 0).state ≠ .out ∧ (base.getBin 0).state ≠ .opened) := by decide
theorem test_met_RecoveryListStandsWhilePresent :
    DeviceLaw (halted (some list0)) ∧ (halted (some list0)).recovery = some list0 ∧
      exec .idleExpiry (halted (some list0)) = .next (halted (some list0)) := by
  refine ⟨⟨?_, ⟨?_, ?_, ?_⟩, ?_⟩, rfl, rfl⟩
  · unfold TransportLaw RunningLaw TransportTimers CoversCaused Calm
    rw [if_neg (by decide)]; decide
  · unfold LinkCapacity; decide
  · unfold PathCapacity; decide
  · refine ⟨rfl, rfl, rfl, ?_⟩
    intro l h; cases h; decide
  · refine ⟨rfl, ?_⟩
    unfold Bin.lawful; decide
theorem test_met_RecoveryQueryReadsTheList :
    31 < (32 : Byte).toNat ∧ 8 < (9 : Byte).toNat ∧ (31 : Byte).toNat ≤ 31 ∧ (8 : Byte) ≠ 0 ∧ (8 : Byte).toNat ≤ 8 ∧
      base.recovery = none ∧ (halted (some list0)).recovery = some list0 := by decide
theorem test_met_ResumeClearsTheList :
    RequestsTaken (inTransport .recover) ∧ RequestsTaken (inTransport .halt) ∧ RequestsTaken (inTransport .run) ∧
      (inTransport .recover).tracker.transport = .recover ∧ (inTransport .halt).tracker.transport = .halt ∧
      (inTransport .run).tracker.transport = .run := ⟨taken_in _, taken_in _, taken_in _, rfl, rfl, rfl⟩
theorem test_met_SetParameterStagesTheClampedValue :
    paramOf (field [0, 0, 0, 0, 0] 0) = none ∧ paramOf (field [113, 0x80, 0, 0, 0] 0) = some ⟨.link, 1⟩ ∧
      (⟨.link, 1⟩ : Param).high < fieldLe [113, 0x80, 0, 0, 0] 1 4 ∧ fieldLe [113, 0x7F, 0, 0, 0] 1 4 ≤ (⟨.link, 1⟩ : Param).high ∧
      paramOf (field [1, 19, 0, 0, 0] 0) = some ⟨.path, 0⟩ ∧ 19 < (⟨.path, 0⟩ : Param).low ∧ (⟨.path, 0⟩ : Param).high < 801 ∧
      (base.shuttle.state = .docked ∧ (withShuttle returning).shuttle.state ≠ .docked) := by decide
theorem test_met_ReadingRequestsChangeNothing :
    paramOf (26 : Byte).toNat = none ∧ paramOf (25 : Byte).toNat = some ⟨.path, 24⟩ ∧ tableOf (7 : Byte).toNat = none ∧
      tableOf (6 : Byte).toNat = some .binPackets ∧ 23 < (24 : Byte).toNat ∧ (23 : Byte).toNat ≤ 23 ∧ (8 : Byte) ≠ 0 ∧
      TableCode.binPackets.lastIndex < (255 : Byte).toNat ∧ (0 : Byte).toNat ≤ TableCode.binPackets.lastIndex := by decide
theorem test_met_NoticeMaskIsInForceAtOnce :
    RequestsTaken base ∧ 0x7FFFFF < fieldLe [0, 0, 0x80, 0] 0 4 ∧ fieldLe [0xFF, 0xFF, 0x7F, 0] 0 4 ≤ 0x7FFFFF :=
  ⟨taken_base, by decide, by decide⟩

/-! ## Hypotheses of the clauses said shape by shape -/

/-- A configuration memory with a good header and one good section, empty, of the PATH group. -/
def goodImage : List Host.Cell :=
  [(0, 0x24), (1, 0xDC), (2, 1), (3, 0), (4, 1), (5, 0), (6, 4), (7, 0), (8, 0), (9, 0), (10, 0), (11, 0)]
theorem test_met_LoadEnd_good_and_bad :
    (∀ g ∈ allGroups, profileCause goodImage g = .none) ∧ Image.wf goodImage = true ∧
      profileCause State.reset.image .path ≠ .none := by decide
theorem test_met_EmptyQueue_due :
    let s := { base with queue := [entry0], window := some 0, now := 59999, shuttle := carrying .shelf }
    .sheetMissing ∈ (tick s).pending ∧ .entryLate ∈ (tick s).pending ∧ .moveTimeout ∈ (tick s).pending ∧
      .lateJamStage 0 ∈ (tick { withRec toS2 with now := 1599 }).pending ∧
      .slipStage 0 ∈ (tick { withRec toS2 with now := 499 }).pending ∧
      .slipStage 0 ∉ (tick { withRec toS2 with now := 498 }).pending ∧
      .clearDeadlineExpiry 0 ∈
        (tick (withRec { toS2 with clearDl := some { at_ := 1, sensor := .s0 } })).pending ∧
      .jogEnd .a ∈ (tick (withComp (closing jogging))).pending ∧
      .reportTimerExpiry .a ∈ (tick (withComp (closing inStroke))).pending := by decide
theorem test_met_RestartFull_unknown : RequestsTaken base ∧ (2 : Byte) ≠ 0 ∧ (2 : Byte) ≠ 1 := ⟨taken_base, by decide, by decide⟩

/-- Set 1 of run 0 as given, with compiler A as given. -/
def withSet (q : SetRec) (c : Compiler) : State :=
  { base with runs := base.runs.set 0 (some run0), sets := base.sets.set 0 (some q), compA := c }
def gone0 : SetRec := { set0 with aborted := true, assigned := none }
theorem test_met_AbortSet_removal :
    ((withSet gone0 Compiler.initial).getSet key0 = some gone0 ∧ gone0.aborted = true ∧ gone0.inCompiler = 0 ∧
      (withSet gone0 Compiler.initial).tracker.path = [] ∧ (withSet gone0 Compiler.initial).compA.packet = none ∧
      (withSet gone0 Compiler.initial).compB.packet = none ∧ (withSet gone0 Compiler.initial).shuttle.packet = none) ∧
    (set0.aborted = false ∧ ({ gone0 with inCompiler := 1 } : SetRec).inCompiler ≠ 0 ∧
      (withSet gone0 (closing stroke)).compA.packet = some packet0 ∧ packet0.key = key0 ∧
      toS2 ∈ (withRec toS2).tracker.path ∧ toS2.kind = .confirmed ∧ toS2.key = some key0) ∧
    (gone0.assigned = none ∧ set0.assigned = some (.a, .current) ∧
      ({ set0 with assigned := some (.b, .reserved) } : SetRec).assigned = some (.b, .reserved)) := by decide
/-- Page 2 of 2 of set 1. -/
def sheet2 : Sheet := { sheet0 with page := 2, pages := 2 }
/-- Set 1 with the first of its 2 pages announced. -/
def half0 : SetRec := { set0 with pages := 2, state := .announcing, confirmed := 0, assigned := none }
theorem test_met_Announce_next_page :
    (withRun .off).getSet key0 = none ∧ (withSet half0 Compiler.initial).getSet sheet2.key ≠ none ∧
      announceRefusal (withSet half0 Compiler.initial) 5 sheet2 false = none ∧
      announceRefusal (withSet { half0 with state := .recovering } Compiler.initial) 5 sheet2 true = none := by decide
/-- Each step of R28 is the first to fail somewhere. -/
theorem test_met_RefusedAnnounce_steps :
    let s := withRun .off
    let other := { half0 with key := { run := 0, set := 2 } }
    announceRefusal { s with runs := s.runs.set 0 (some { run0 with state := .done }) } 5 sheet0 false = some .runNotOpen ∧
    announceRefusal s 5 { sheet0 with key := { run := 0, set := 3 } } false = some .setDone ∧
    announceRefusal (withSet gone0 Compiler.initial) 5 sheet0 false = some .setDone ∧
    announceRefusal (withSet { half0 with thickness := 7990 } Compiler.initial) 5 sheet2 false = some .tooThick ∧
    announceRefusal { s with compA := { s.compA with tags := [5] } } 5 sheet0 false = some .duplicateTag ∧
    announceRefusal { s with queue := List.replicate 8 entry0 } 6 sheet0 false = some .queueFull ∧
    announceRefusal { s with sets := List.replicate 32 (some { set0 with key := { run := 1, set := 1 } }) } 5 sheet0 false =
      some .tableFull ∧
    announceRefusal (withRun .recover) 5 sheet0 false = some .halted ∧
    announceRefusal s 5 sheet0 true = some .badField ∧
    announceRefusal (withSet { set0 with state := .diverting } Compiler.initial) 5 sheet0 false = some .diverted ∧
    contiguityRefusal { s with sets := s.sets.set 0 (some other) } sheet0 = some .setInterleaved ∧
    contiguityRefusal s sheet2 = some .outOfOrder ∧ contiguityRefusal s sheet0 = none ∧
    contiguityRefusal
      { s with sets := (s.sets.set 0 (some other)).set 1 (some { half0 with state := .recovering }) } sheet2 =
        some .setInterleaved ∧
    contiguityRefusal (withSet { half0 with next := 3 } Compiler.initial) sheet2 = some .outOfOrder ∧
    contiguityRefusal (withSet { half0 with pages := 3 } Compiler.initial) sheet2 = some .pagesMismatch ∧
    contiguityRefusal (withSet half0 Compiler.initial) sheet2 = none ∧
    contiguityRefusal (withSet { set0 with state := .packing } Compiler.initial) sheet0 = some .outOfOrder ∧
    contiguityRefusal (withSet set0 Compiler.initial) sheet0 = some .outOfOrder := by decide
/-- A page rolled back leaves nothing of the one set and a confirmed page of the other. -/
theorem test_met_Withdraw_rollback :
    let u (c : Nat) := modSet key0 (fun x => { x with announced := x.announced - [entry0].length })
      (withSet { set0 with confirmed := c } Compiler.initial)
    ((u 0).getSet key0 = some { set0 with announced := 0, confirmed := 0 }) ∧
      (u 1).getSet key0 = some { set0 with announced := 0, confirmed := 1 } := by decide
theorem test_met_S0Clear_stray_or_none :
    coveringRec (inTransport .run) .s0 = none ∧
      coveringRec (withRec { atS0 with kind := .stray, sheet := none }) .s0 = some 0 := by decide
/-- A record whose S0 clear is known and that covers S1 since tick 0. -/
def overS1 : PathRec := recOf (.to .a) ((noTicks.set .s0 (some 0)).set .s1 (some 0)) (noTicks.set .s0 (some 0))
theorem test_met_ClearEvents_deadlines :
    (withRec overS1).tracker.path[0]? = some overS1 ∧ parkedRec.parked = true ∧ overS1.parked = false ∧
      [.s0] ++ [.s1] <+: overS1.route.sensors ∧ overS1.clear.get .s0 ≠ none ∧ overS1.lead.get .s1 = some 0 ∧
      overS1.clear.get .s1 = none ∧ (∀ x ∈ toS3.route.sensors, toS3.lead.get x = none ∨ x = .s2) ∧
      reached 0 (after 0 (passage (withRec overS1) overS1 .s1 + (withRec overS1).tJam)) = false ∧
      reached 100000 (after 0 (passage (withRec overS1) overS1 .s1 + (withRec overS1).tJam)) = true := by decide
def handed0 (path : List PathRec) (queue : List Entry) (x : Sensor) : Handed :=
  { path := path, queue := queue, halt := { cause := .jam, jam := some (.late, x), time := 0 } }
theorem test_met_Halt_stock :
    hasLosses base (handed0 [] [] .s1) = false ∧ hasLosses base (handed0 [] [entry0] .s1) = true ∧
      hasLosses (withComp settling) (handed0 [] [] .s5a) = true ∧ hasLosses (withComp settling) (handed0 [] [] .s5b) = false ∧
      stackNamed (withComp settling) (handed0 [] [] .s5a) .a = true ∧
      affectedCause (handed0 [] [] .s5a) [key0] key0 = some .compilerLoss ∧
      affectedCause (handed0 [toS2] [] .s1) [] key0 = some .pathLoss ∧
      affectedCause (handed0 [onPurge .stray none] [entry0] .s1) [] key0 = some .discarded ∧
      affectedCause (handed0 [] [{ entry0 with void := true }] .s1) [] key0 = none ∧
      keptStack (withComp settling) key0 = (1, 0) ∧ keptStack base key0 = (0, 0) ∧
      keptStack { base with compB := { settling with count := 2 } } key0 = (2, 0) ∧
      ({ settling with reserved := some key0 } : Compiler).reserved = some key0 ∧ settling.reserved = none ∧
      base.compA.current = none := by decide
theorem test_met_Router_pace :
    let hold : PaceConditions := paceConditions { base with tracker := { base.tracker with purgeCount := 250 } }
    let free : PaceConditions := paceConditions base
    (hold.purgeFull = true ∧ hold.noCompiler = false ∧ hold.noTarget = false ∧ base.router.held = false) ∧
      (free.purgeFull = false ∧ free.noCompiler = false ∧ free.noTarget = false) ∧
      base.purgeCapacity ≤ 250 ∧ ¬ base.purgeCapacity ≤ 249 ∧
      available (withComp { settling with count := 1 }) .a = true ∧ available (withComp { settling with count := 0 }) .a = false ∧
      available { withComp { settling with count := 1 } with sets := base.sets.set 0 (some { set0 with aborted := true }) } .a =
        false := by decide
theorem test_met_Diverter_cases :
    let div (q : SetRec) : State := { withRec toS2 with sets := base.sets.set 0 (some q) }
    lastOfCurrent { gating toS3 none with sets := base.sets.set 0 (some set0) } toS3 = true ∧
      (div { set0 with state := .diverting }).isDiverting key0 = true ∧ (div set0).isDiverting key0 = false ∧
      (onPurge .stray none).sheet = none ∧ toS2.sheet = some sheet0 ∧
      (modSet key0 (fun q => { q with state := .diverting }) (div set0)).getSet key0 =
        some { set0 with state := .diverting } ∧ set0.assigned = some (.a, .current) ∧
      ({ base with queue := [entry0] } : State).queue = [entry0] ∧ entry0.void = false ∧ entry0.sheet.key = key0 ∧
      (toS2.kind = .confirmed ∧ toS2.lead.s2 = none) ∧ (toS3.lead.s2 ≠ none ∧ toS3.route ≠ .purge) ∧
      ({ set0 with divertPage := some 1, divertCause := some .overrun } : SetRec).divertPage = some 1 := by decide
theorem test_met_Diverter_cancels :
    let c : Compiler := { settling with reserved := some { run := 0, set := 2 } }
    (c.reserved = some { run := 0, set := 2 } ∧ c.current = some key0) ∧
      (withSet { set0 with state := .recovering } c).getSet key0 = some { set0 with state := .recovering } ∧
      settling.reserved = none ∧ set0.state ≠ .diverting ∧ set0.state ≠ .recovering := by decide
theorem test_met_JogEnd_no_more :
    ((withComp (closing { jogging with noMore := true })).comp .a).close = some { jogging with noMore := true } ∧
      ((withComp (closing jogging)).comp .a).packet = some packet0 := by decide
theorem test_met_TransferEnds_cases :
    let held (c : Compiler) : State := { withComp c with shuttle := { Shuttle.initial with state := .loading, target := some .shelf } }
    ((held { transferring with transfer := none }).comp .a).transfer = none ∧ (base.comp .a).state ≠ .transfer ∧
      expired 0 (some (1 : Tick)) = false ∧
      ((held transferring).shuttle.suspended = false ∧ (held transferring).shuttle.target = some .shelf) ∧
      ({ Shuttle.initial with suspended := true } : Shuttle).suspended = true ∧
      ({ transferring with reserved := some { run := 0, set := 2 } } : Compiler).reserved = some { run := 0, set := 2 } ∧
      set0.pages ≠ 0 ∧ transferring.reserved = none ∧ transferring.outPending = false ∧
      ({ transferring with outPending := true } : Compiler).outPending = true := by decide
theorem test_met_CompilerService_bad_field :
    RequestsTaken base ∧ ((0 : Byte) ≠ 1 ∧ (0 : Byte) ≠ 2) ∧ ((3 : Byte) ≠ 1 ∧ (3 : Byte) ≠ 2) ∧ ((2 : Byte) ≠ 0 ∧ (2 : Byte) ≠ 1) :=
  ⟨taken_base, by decide, by decide, by decide⟩
/-- Run 0 with bin 0 as its active bin, bins 0 and 1 in its mask, and bin 0 as given. -/
def spilling (q : Bin) : State :=
  { base with
    runs := base.runs.set 0 (some { run0 with mask := 3, owned := [0], active := some 0 }), bins := base.bins.set 0 q }
def owned0 (d : Nat) : Bin := { Bin.initial with state := .owned, owner := some 0, packets := List.replicate d packet0 }
/-- Compiler A READY with packet 0. -/
def offering : State := { base with compA := { closing stroke with state := .ready, close := none } }
theorem test_met_Targets_cases :
    (spilling (owned0 39)).getRun packet0.key.run = some { run0 with mask := 3, owned := [0], active := some 0 } ∧
      targetTakes (spilling (owned0 39)) packet0 (.bin 0) = true ∧ targetTakes (spilling (owned0 40)) packet0 (.bin 0) = false ∧
      (selectTarget packet0 (spilling (owned0 40))).2 = some (.bin 1) ∧
      ((selectTarget packet0 (spilling (owned0 40))).1.getBin 0).state = .full ∧
      ((spilling { owned0 40 with state := .full }).getBin 0).state ≠ .owned ∧
      (selectTarget packet0 { spilling (owned0 40) with
        bins := (spilling (owned0 40)).bins.set 1 { Bin.initial with state := .held } }).2 = some .shelf := by decide +kernel
theorem test_met_Targets_offers :
    (CompilerId.a, packet0) ∈ offering.offers ∧ offering.shuttle.state = .docked ∧ offering.shuttle.suspended = false ∧
      offering.shuttle.packet = none ∧ (withShuttle (carrying .shelf)).shuttle.state ≠ .docked ∧
      (selectTarget packet0 offering).2 = some .shelf ∧
      (selectTarget packet0 { offering with shelf := { offering.shelf with fullMark := true } }).2 = none ∧
      ({ offering with compB := { offering.compA with packet := some { packet0 with seq := 0 } } } : State).offers =
        [(.b, { packet0 with seq := 0 }), (.a, packet0)] := by decide
theorem test_met_Arrival_refused :
    base.shuttle.move = none ∧
      (∀ t, (ownedBin 40).shuttle.target = some t → targetTakes (ownedBin 40) packet0 t = false) ∧
      (selectTarget packet0 (ownedBin 40)).2 = some .shelf ∧
      (selectTarget packet0 { ownedBin 40 with shelf := { base.shelf with fullMark := true } }).2 = none := by
  refine ⟨rfl, ?_, by decide, by decide⟩
  intro t h; cases h; decide

/-- The repeat of an accepted Announce (R162, R28; log 44): its tag is held, and it is refused by the first failing step. -/
theorem test_repeated_announce :
    let held (st : SetState) : State :=
      { withSet { set0 with state := st } Compiler.initial with queue := [entry0], tracker := (withRun .run).tracker }
    announceRefusal (held .diverting) entry0.tag entry0.sheet false = some .duplicateTag ∧
      announceRefusal (held .fed) entry0.tag entry0.sheet false = some .outOfOrder := by decide

/-! ## Hypotheses of the clauses that say what an operation does -/

theorem test_met_Run_checks :
    let one (r : Run) : State := { base with runs := base.runs.set 0 (some r) }
    let full : Run := { run0 with delivered := 1, aborted := 1 }
    ((one full).getRun 0 = some full ∧ full.state = .opened ∧ full.delivered + full.aborted = full.declared ∧
      run0.delivered + run0.aborted ≠ run0.declared) ∧
    ((one { run0 with state := .aborted }).setRecs = [] ∧ ({ run0 with owned := [0] } : Run).owned ≠ [] ∧ run0.owned = [] ∧
      ∃ x ∈ (withSet set0 Compiler.initial).setRecs, x.key.run = 0) ∧
    ((ownedBin 0).getBin 0).owner = some 0 ∧ ((ownedBin 0).getBin 0).packets = [] := by
  refine ⟨by decide, ⟨by decide, by decide, by decide, set0, by decide, rfl⟩, by decide, by decide⟩
/-- A record just confirmed, with set 1 as given. -/
def confirming (q : SetRec) : State := { withSet q Compiler.initial with tracker := (withRec toS2).tracker }
def unassigned0 : SetRec := { set0 with assigned := none }
theorem test_met_RouteDecision :
    let busy : State := { confirming unassigned0 with
      compA := { closing jogging with jogStart := 200000 }, compB := { Compiler.initial with state := .out } }
    (base.purgeCapacity ≤ 250 ∧ base.tracker.purgeCount < base.purgeCapacity) ∧ 0 < (confirming set0).tracker.path.length ∧
      (confirming { set0 with state := .diverting }).getSet key0 = some { set0 with state := .diverting } ∧
      set0.state ≠ .diverting ∧ set0.assigned = some (.a, .current) ∧ unassigned0.assigned = none ∧
      (confirming unassigned0).getRun key0.run = some run0 ∧
      (chooseCompiler (confirming unassigned0) run0 = some .a ∧ ((confirming unassigned0).comp .a).state = .empty ∧
        gapOf (confirming unassigned0) (holdOf (freeEstimate (confirming unassigned0) .a) (after 0 19500)) = 0) ∧
      (chooseCompiler busy run0 = some .a ∧ (busy.comp .a).state ≠ .empty ∧
        gapOf busy (holdOf (freeEstimate busy .a) (after 0 19500)) = 15) ∧
      chooseCompiler { busy with compA := { busy.compA with state := .out } } run0 = none := by decide +kernel
theorem test_met_Landing_and_close :
    (set0.pages = sheet0.page ∧ half0.pages ≠ sheet0.page) ∧
      (settling.state = .gathering ∧ ({ settling with settle := none } : Compiler).settle = none ∧ base.pins.front = false ∧
        settling.count = set0.pages ∧ (withSet gone0 settling).getSet key0 = some gone0) ∧
      (settling.settle ≠ none ∧ Compiler.initial.state ≠ .gathering ∧ Compiler.initial.current = none) ∧
      (settling.count ≠ half0.pages ∧ half0.aborted = false ∧ gone0.aborted = true ∧ gone0.state ≠ .diverting ∧
        toS2.kind = .confirmed ∧ toS2.key = some key0) := by decide
theorem test_met_Covers_compilers :
    (jogging.report = none ∧ inStroke.report ≠ none ∧ (closing jogging).state = .closing ∧
      (closing inStroke).close = some inStroke ∧ transferring.state = .transfer ∧ settling.state = .gathering) ∧
    (stroke.jogEnd = none ∧ stroke.report = none ∧ jogging.jogEnd ≠ none) ∧
    (transferring.transfer ≠ none ∧ ({ transferring with transfer := none } : Compiler).transfer = none ∧ transferring.paper = false ∧
      ({ transferring with paper := true } : Compiler).paper = true) ∧
    (let w : Compiler := { Compiler.initial with state := .clearWait, cycleMark := true };
      w.state = .clearWait ∧ w.paper = false ∧ w.cycleMark = true ∧ w.outPending = false ∧
        ({ w with outPending := true } : Compiler).outPending = true ∧ ({ w with cycleMark := false } : Compiler).cycleMark = false) := by decide
theorem test_met_Covers_transport :
    (inTransport .halt).tracker.transport = .halt ∧ (∀ x, (inTransport .halt).tracker.readings.get x = false) ∧
      base.tracker.transport ≠ .halt ∧ (setReading .s4 true (inTransport .halt)).tracker.readings.get .s4 = true ∧
      base.tracker.purgeCount < base.purgeCapacity ∧ base.purgeCapacity ≤ 250 ∧
      ({ base with latched := { base.latched with path := [] } } : State).purgeCapacity = 0 ∧ 17 * base.pitch < 170001 := by
  refine ⟨rfl, ?_, by decide, by decide, by decide, by decide, by decide, by decide⟩
  intro x; cases x <;> rfl
theorem test_met_Estimates :
    let last : PathRec := recOf (.to .a) ((noTicks.set .s0 (some 0)).set .s4 (some 7)) (noTicks.set .s0 (some 0))
    (Compiler.initial.state = .empty ∧ (closing jogging).close = some jogging ∧ base.shuttle.state = .docked ∧
      ({ returning with free := some 9 } : Shuttle).state ≠ .docked ∧ transferring.state = .transfer) ∧
    ((withComp settling).getSet key0 = some set0 ∧ (withComp settling).getRun key0.run = some run0 ∧
      settling.count = set0.pages ∧ ({ settling with count := 0 } : Compiler).count ≠ set0.pages) ∧
    (({ withComp settling with tracker := (withRec last).tracker } : State).tracker.path.find? (fun c : PathRec => c.kind == .confirmed &&
      c.route == .to .a && c.sheet.any (fun sh : Sheet => sh.key == set0.key && sh.page == set0.pages)) = some last) ∧
    (last.route.sensors = [.s0, .s1, .s2, .s3] ++ .s4 :: [.s5a] ∧ last.lead.get .s4 = some 7 ∧
      last.lead.get .s5a = none) ∧
    (recOf (.to .a) (noTicks.set .s5a (some 8)) noTicks).lead.get (s5Of .a) = some 8 := by decide
theorem test_met_Supply :
    let c (n : Nat) : State := withComp { Compiler.initial with staples := n }
    ((c 0).comp .a).staples = 0 ∧ 0 < ((c 1).comp .a).staples ∧ ((c 1).comp .a).staples ≤ ((c 1).comp .a).threshold ∧
      ((c 5000).comp .a).threshold < ((c 5000).comp .a).staples := by decide
theorem test_met_Tower_moves :
    (carrying .shelf).target = some .shelf ∧ (carrying .shelf).state ≠ .fault ∧ (carrying .shelf).suspended = false ∧
      ({ carrying .shelf with waiting := true } : Shuttle).waiting = true ∧ (carrying .shelf).packet = some packet0 ∧
      (selectTarget packet0 (withShuttle { carrying .shelf with waiting := true, move := none })).2 = some .shelf ∧
      (selectTarget packet0 { withShuttle { carrying .shelf with waiting := true, move := none } with
        shelf := { base.shelf with fullMark := true } }).2 = none ∧ (carrying .shelf).waiting = false := by decide
theorem test_met_Doors_and_service :
    (base.getBin 0).owner = none ∧ ((ownedBin 0).getBin 0).owner ≠ none ∧
      (serveBin .out 0 base).2 = 1 ∧ (serveBin .out 0 (withBin { Bin.initial with state := .out })).2 = 0 := by decide
theorem test_met_Delivery_latch :
    let low (q : Bin) : State := { withBin q with latched := { base.latched with delivery := List.replicate 29 99 } }
    (base.getBin 23).height ≤ base.binCapacity 23 ∧ (low (owned0 1)).binCapacity 0 < ((low (owned0 1)).getBin 0).height ∧
      (owned0 1).state = .owned ∧ ({ owned0 1 with state := .opened, preOpen := some .owned } : Bin).preOpen = some .owned ∧
      ({ owned0 1 with state := .full } : Bin).state ≠ .owned := by decide

end Sys2Proof.Tests
end

section
/-! PROOFS. Path sensor events while the transport is not in RUN (R64, R65, R71, R79): what a lead or a clear event does to the
state, said once for each sensor event. -/

namespace Sys2Proof.Machine

@[simp] theorem setReading_transport (x : Sensor) (v : Bool) (s : State) :
    (setReading x v s).tracker.transport = s.tracker.transport := rfl

/-! ## Lead events outside RUN -/

theorem leadAtRest_of_halt (x : Sensor) {s : State} (ht : s.tracker.transport = .halt) : leadAtRest x s = s := if_pos ht

theorem leadAtRest_of_ne_halt (x : Sensor) {s : State} (ht : s.tracker.transport ≠ .halt) :
    leadAtRest x s = jamAtSensor .unexpected x s := if_neg ht

theorem leadAt_of_ne_run (x : Sensor) {s : State} (ht : s.tracker.transport ≠ .run) :
    leadAt x s = leadAtRest x (setReading x true s) := if_neg ht

theorem leadAtS0_of_ne_run {s : State} (ht : s.tracker.transport ≠ .run) :
    leadAtS0 s = leadAtRest .s0 (setReading .s0 true s) := if_neg ht

/-- Outside RUN an S0 lead event matches nothing: it changes the reading and is taken as R64, R65, R71 or R79 says. -/
theorem exec_s0Lead_of_ne_run {s : State} (hl : s.loading = false) (ht : s.tracker.transport ≠ .run) :
    exec .s0Lead s = .next (leadAtRest .s0 (setReading .s0 true (modPins (Pins.setSensor .s0 true) s))) := by
  rw [exec_s0Lead hl, leadAtS0_of_ne_run (by simpa using ht)]

/-- The same at every path sensor; SENSOR_LEAD at S0, which the row does not name, is S0_LEAD (log 45). -/
theorem exec_sensorLead_of_ne_run (x : Sensor) {s : State} (hl : s.loading = false) (ht : s.tracker.transport ≠ .run) :
    exec (.sensorLead x) s = .next (leadAtRest x (setReading x true (modPins (Pins.setSensor x true) s))) := by
  by_cases hx : x = .s0
  · subst hx
    exact exec_s0Lead_of_ne_run hl ht
  · rw [exec_sensorLead hl x hx, leadAt_of_ne_run x (by simpa using ht)]

/-! ## Clear events in HALT -/

/-- In HALT a clear event does not reach the record it would be matched to in RUN. -/
theorem clearEvent_of_halt (x : Sensor) (f : Nat → PathRec → State → State) {s : State} (ht : s.tracker.transport = .halt) :
    clearEvent x f s = leaveTest (jamTest (setReading x false s)) := by
  simp only [clearEvent, setReading_transport, ht, clearInHalt]

theorem exec_s0Clear_of_halt {s : State} (hl : s.loading = false) (ht : s.tracker.transport = .halt) :
    exec .s0Clear s = .next (leaveTest (jamTest (setReading .s0 false (modPins (Pins.setSensor .s0 false) s)))) := by
  rw [exec_s0Clear hl, clearEvent_of_halt .s0 _ (by simpa using ht)]

/-- The same at every path sensor; SENSOR_CLEAR at S0, which the row does not name, is S0_CLEAR (log 45). -/
theorem exec_sensorClear_of_halt (x : Sensor) {s : State} (hl : s.loading = false) (ht : s.tracker.transport = .halt) :
    exec (.sensorClear x) s = .next (leaveTest (jamTest (setReading x false (modPins (Pins.setSensor x false) s)))) := by
  by_cases hx : x = .s0
  · subst hx
    exact exec_s0Clear_of_halt hl ht
  · rw [exec_sensorClear hl x hx, clearEvent_of_halt x _ (by simpa using ht)]

/-- Settles O30: outside RUN each event is its reading and what R79, R64, R65 or R71 adds by the transport state. -/
theorem pathEventsInHaltClearTheHalt : Obligations.PathEventsInHaltClearTheHalt := by
  intro x s hl
  refine ⟨fun hlaw ht => (hlaw.inHalt ht).1, fun ht => ⟨?_, ?_, ?_, ?_⟩, fun ht => ?_⟩
  · rw [exec_sensorLead_of_ne_run x hl (by simp [ht]), leadAtRest_of_halt x (by simpa using ht)]
  · rw [exec_s0Lead_of_ne_run hl (by simp [ht]), leadAtRest_of_halt .s0 (by simpa using ht)]
  · exact exec_sensorClear_of_halt x hl ht
  · exact exec_s0Clear_of_halt hl ht
  · have hrun : s.tracker.transport ≠ .run := by rcases ht with ht | ht | ht <;> simp [ht]
    have hhalt : s.tracker.transport ≠ .halt := by rcases ht with ht | ht | ht <;> simp [ht]
    constructor
    · rw [exec_sensorLead_of_ne_run x hl hrun, leadAtRest_of_ne_halt x (by simpa using hhalt)]
    · rw [exec_s0Lead_of_ne_run hl hrun, leadAtRest_of_ne_halt .s0 (by simpa using hhalt)]

end Sys2Proof.Machine
end

section
/-! PROOFS. The stapler and its supply (R103 to R106, R110, R111): the jog's end, the stroke reports and the cartridge events,
from one equation for each case of the test before a stroke, of the supply tests and of the close's end. -/

namespace Sys2Proof.Machine

/-! ## Updates and a compiler -/

/-- An update of a compiler counts only at the compiler as it stands. -/
theorem modComp_congr {x : CompilerId} {f g : Compiler → Compiler} {s : State} (h : f (s.comp x) = g (s.comp x)) :
    modComp x f s = modComp x g s := by
  cases x with
  | a => exact congrArg (fun c => ({ s with compA := c } : State)) h
  | b => exact congrArg (fun c => ({ s with compB := c } : State)) h

@[simp] theorem modPins_comp (f : Pins → Pins) (s : State) (x : CompilerId) : (modPins f s).comp x = s.comp x := by
  cases x <;> rfl

/-! ## The supply tests (R111) -/

theorem supplyTests_of_out (x : CompilerId) {n : Nat} (th : Nat) {s : State} (hn : 0 < n) (hc : (s.comp x).staples = 0) :
    supplyTests x n th s = notify (.stapleOut x 0 (s.comp x).threshold) s := by
  simp [supplyTests, hn, hc]

theorem supplyTests_of_low (x : CompilerId) (n : Nat) {th : Nat} {s : State} (hn : th < n) (hpos : 0 < (s.comp x).staples)
    (hle : (s.comp x).staples ≤ (s.comp x).threshold) :
    supplyTests x n th s = notify (.stapleLow x (s.comp x).staples (s.comp x).threshold) s := by
  have hone : 1 ≤ (s.comp x).staples := hpos
  simp [supplyTests, hn, hone, hle, hpos.ne']

/-- No notice: the count did not come to 0 from above, and did not come from above the threshold into its range. -/
theorem supplyTests_of_neither (x : CompilerId) {n th : Nat} {s : State} (hout : n = 0 ∨ 0 < (s.comp x).staples)
    (hlow : n ≤ th ∨ (s.comp x).staples = 0 ∨ (s.comp x).threshold < (s.comp x).staples) :
    supplyTests x n th s = s := by
  have hno : (decide (0 < n) && (s.comp x).staples == 0) = false := by
    rw [Bool.eq_false_iff, Ne, Bool.and_eq_true, decide_eq_true_iff, beq_iff_eq]; omega
  have hnl : (decide (th < n) && decide (1 ≤ (s.comp x).staples) &&
      decide ((s.comp x).staples ≤ (s.comp x).threshold)) = false := by
    rw [Bool.eq_false_iff, Ne, Bool.and_eq_true, Bool.and_eq_true]
    simp only [decide_eq_true_iff]; omega
  simp [supplyTests, hno, hnl]

/-! ## The test before a stroke (R103) -/

section
variable {x : CompilerId} {p : CloseProgress} {s : State} (hc : (s.comp x).close = some p)
include hc

theorem strokeTest_of_done (hd : p.noMore = true ∨ p.planned ≤ p.made) : strokeTest x s = closeEnd x s := by
  simp [strokeTest, hc, hd]

theorem strokeTest_of_fault (hm : p.noMore = false) (hd : p.made < p.planned) (hf : (s.comp x).fault = true) :
    strokeTest x s = closeEnd x (modComp x (Compiler.flagPacket (fun f => { f with stapleFailed := true })) s) := by
  simp [strokeTest, hc, hm, hd, hf]

theorem strokeTest_of_noStaple (hm : p.noMore = false) (hd : p.made < p.planned) (hf : (s.comp x).fault = false)
    (h0 : (s.comp x).staples = 0) :
    strokeTest x s = closeEnd x (modComp x (Compiler.flagPacket (fun f => { f with noStaple := true })) s) := by
  simp [strokeTest, hc, hm, hd, hf, h0]

theorem strokeTest_of_stroke (hm : p.noMore = false) (hd : p.made < p.planned) (hf : (s.comp x).fault = false)
    (h0 : (s.comp x).staples ≠ 0) : strokeTest x s = strokeStart x p s := by
  simp [strokeTest, hc, hm, hd, hf, h0]

end

/-- A stroke's start, with the timer's end and the tests' thresholds read before the staple is taken. -/
theorem strokeStart_eq (x : CompilerId) (p : CloseProgress) (s : State) :
    strokeStart x p s = supplyTests x (s.comp x).staples (s.comp x).threshold (modComp x (fun c =>
      { c with
        staples := c.staples - 1,
        close := some { p with
          report := some (after s.now ((s.comp x).tStaple + 5000)),
          retries := if p.retry then p.retries + 1 else p.retries } }) s) :=
  congrArg (supplyTests x (s.comp x).staples (s.comp x).threshold) (modComp_congr rfl)

/-! ## The close's end (R106) and a stapler FAULT (R104, R105) -/

theorem CloseProgress.allMade_eq (p : CloseProgress) : p.allMade = decide (0 < p.planned ∧ p.made = p.planned) := by
  simp only [CloseProgress.allMade, Bool.decide_and, beq_eq_decide]

theorem closeEnd_eq {x : CompilerId} {p : CloseProgress} {k : Packet} {s : State} (hc : (s.comp x).close = some p)
    (hk : (s.comp x).packet = some k) :
    closeEnd x s = paceTest (arbitrate (modComp x (fun c =>
      { c with
        state := .ready, close := none, undeliverable := false, blockedSent := false,
        packet := some { k with stapled := decide (0 < p.planned ∧ p.made = p.planned) } }) s)) := by
  refine congrArg (fun t => paceTest (arbitrate t)) (modComp_congr ?_)
  simp only [hc, hk, Option.map_some, Option.any_some, CloseProgress.allMade_eq]

/-- The stapler's FAULT names the position of the stroke that failed. -/
theorem staplerFault_eq {x : CompilerId} {p : CloseProgress} {k : Packet} {s : State} (cause : StaplerCause)
    (hc : (s.comp x).close = some p) (hk : (s.comp x).packet = some k) :
    staplerFault x cause s = closeEnd x (notify
      (.staplerFault x { k with flags := { k.flags with stapleFailed := true } } (p.made + 1) cause)
      (modComp x (fun q =>
        { q with
          fault := true, close := some { p with report := none, noMore := true },
          packet := some { k with flags := { k.flags with stapleFailed := true } } }) s)) := by
  have hfault : modComp x (fun c => Compiler.flagPacket (fun f => { f with stapleFailed := true })
      { c with fault := true, close := c.close.map (fun p => { p with report := none, noMore := true }) }) s =
      modComp x (fun q =>
        { q with
          fault := true, close := some { p with report := none, noMore := true },
          packet := some { k with flags := { k.flags with stapleFailed := true } } }) s :=
    modComp_congr (by simp only [Compiler.flagPacket, hc, hk, Option.map_some])
  simp only [staplerFault, hfault, modComp_comp, hc, Option.map_some, Option.getD_some]

/-! ## The stroke reports (R104) -/

theorem strokeFormed_eq {x : CompilerId} {p : CloseProgress} {s : State} (hc : (s.comp x).close = some p) :
    strokeFormed x s = strokeTest x (modComp x (fun c =>
      { c with close := some { p with report := none, made := p.made + 1, retry := false } }) s) :=
  congrArg (strokeTest x) (modComp_congr (by simp only [hc, Option.map_some]))

theorem strokeNotFormed_of_first (x : CompilerId) {p : CloseProgress} (s : State) (hr : p.retry = false) :
    strokeNotFormed x p s =
      strokeTest x (modComp x (fun c => { c with close := some { p with report := none, retry := true } }) s) :=
  if_neg (by simp [hr])

theorem strokeNotFormed_of_retry (x : CompilerId) {p : CloseProgress} (s : State) (hr : p.retry = true) :
    strokeNotFormed x p s = staplerFault x .notFormed s := if_pos hr

/-! ## The two timers of a close and the cartridge inputs, as commands -/

/-- JOG_END at the jog timer's end: the timer stops and the test before a stroke is made (R103). -/
theorem exec_jogEnd {x : CompilerId} {p : CloseProgress} {d : Tick} {s : State} (hc : (s.comp x).close = some p)
    (hj : p.jogEnd = some d) (hd : reached s.now d = true) :
    exec (.jogEnd x) s =
      .next (strokeTest x (modComp x (fun c => { c with close := some { p with jogEnd := none } }) s)) := by
  simp only [exec, execJogEnd, hc, hj, expired, hd, if_true]

/-- REPORT_TIMER_EXPIRY at the report timer's end (R105). -/
theorem exec_reportTimerExpiry {x : CompilerId} {p : CloseProgress} {d : Tick} {s : State} (hc : (s.comp x).close = some p)
    (hr : p.report = some d) (hd : reached s.now d = true) :
    exec (.reportTimerExpiry x) s = .next (staplerFault x .noReport s) := by
  simp only [exec, execReportTimerExpiry, hc, hr, expired, hd, if_true]

section
variable {s : State} (h : s.loading = false) (x : CompilerId)
include h

theorem exec_cartridgeInserted : exec (.cartridgeInserted x) s =
    .next (modComp x (fun c => { c with staples := c.capacity, fault := false }) (modPins (Pins.setCart x true) s)) :=
  congrArg _ (takeEvent_run h _ _)

theorem exec_cartridgeRemoved : exec (.cartridgeRemoved x) s =
    .next (supplyTests x (s.comp x).staples (s.comp x).threshold
      (modComp x (fun c => { c with staples := 0 }) (modPins (Pins.setCart x false) s))) := by
  simp only [exec, execCartridgeRemoved, takeEvent_run h, modPins_comp]

end

/-! ## The obligations -/

/-- Settles O40: with the jog timer stopped, the four cases of the test before a stroke. -/
theorem jogEndTestsTheStapler : Obligations.JogEndTestsTheStapler := by
  refine ⟨fun x p d s hc hj hd hm => ⟨_, rfl, ?_, ?_, ?_, ?_⟩, fun x p d s hc hj hd hm => ?_,
    fun x p k s hc hk => closeEnd_eq hc hk⟩
  all_goals rw [exec_jogEnd hc hj hd]
  · intro hle
    rw [strokeTest_of_done (p := { p with jogEnd := none }) (by simp) (.inr hle)]
  · intro hlt hf
    rw [strokeTest_of_fault (p := { p with jogEnd := none }) (by simp) hm hlt (by simpa using hf)]
  · intro hlt hf h0
    rw [strokeTest_of_noStaple (p := { p with jogEnd := none }) (by simp) hm hlt (by simpa using hf) (by simpa using h0)]
  · intro hlt hf h0
    rw [strokeTest_of_stroke (p := { p with jogEnd := none }) (by simp) hm hlt (by simpa using hf) (by simpa using h0),
      strokeStart_eq]
    simp only [modComp_comp, modComp_now]
    rfl
  · rw [strokeTest_of_done (p := { p with jogEnd := none }) (by simp) (.inl hm)]

/-- Settles O41: a report counts only while its timer runs, and its first NOT_FORMED alone is tried again. -/
theorem strokeReportsAreTaken : Obligations.StrokeReportsAreTaken := by
  intro x s
  refine ⟨fun hl hc f => exec_strokeReport_ignored hl x f hc, fun p d hc hr => ⟨?_, ?_, ?_, ?_, ?_⟩⟩
  · intro hl
    rw [exec_strokeReport hl x true hc hr, if_pos rfl, strokeFormed_eq hc]
  · intro hl hfirst
    rw [exec_strokeReport hl x false hc hr, if_neg Bool.false_ne_true, strokeNotFormed_of_first x s hfirst]
  · intro hl hretry
    rw [exec_strokeReport hl x false hc hr, if_neg Bool.false_ne_true, strokeNotFormed_of_retry x s hretry]
  · exact exec_reportTimerExpiry hc hr
  · exact fun k cause hk => staplerFault_eq cause hc hk

/-- Settles O43: a removal leaves a count of 0, so of the supply tests only Staple Out can follow it. -/
theorem cartridgeEventsSetTheCount : Obligations.CartridgeEventsSetTheCount := by
  refine ⟨fun x n th s => ⟨supplyTests_of_out x th, supplyTests_of_low x n, supplyTests_of_neither x⟩,
    fun x s hl => ⟨?_, fun h0 => ?_, fun hne => ?_⟩⟩
  · rw [exec_cartridgeInserted hl]
    exact congrArg _ (modComp_congr (by simp only [modPins_comp]))
  · rw [exec_cartridgeRemoved hl, supplyTests_of_neither x (.inl h0) (.inr (.inl (by simp)))]
    rfl
  · rw [exec_cartridgeRemoved hl, supplyTests_of_out x _ (Nat.pos_of_ne_zero hne) (by simp)]
    simp only [modComp_comp, modPins_comp]
    rfl

end Sys2Proof.Machine
end

section
/-! PROOFS. The delivery decisions (R122 to R125): when a target takes a packet, the selection with its spill, the arbitration
over the standing offers, and the grant; one equation for each case of each of them. -/

namespace Sys2Proof.Machine

variable {p : Packet} {s : State}

/-! ## When a target takes a packet (R124) -/

theorem targetTakes_bin_iff (s : State) (p : Packet) (b : Fin 24) :
    targetTakes s p (.bin b) = true ↔
      ((s.getBin b).state = .owned ∧ (s.getBin b).owner = some p.key.run) ∧
      (s.getBin b).height + p.thickness ≤ s.binCapacity b ∧ (s.getBin b).packets.length < 40 := by
  simp only [targetTakes, binTakes, Bool.and_eq_true, beq_iff_eq, decide_eq_true_iff, and_assoc]
  rfl

theorem targetTakes_shelf_iff (s : State) (p : Packet) :
    targetTakes s p .shelf = true ↔ s.shelf.fullMark = false ∧ s.shelf.height + p.thickness ≤ s.shelfCapacity := by
  simp only [targetTakes, shelfTakes, Bool.and_eq_true, Bool.not_eq_true', decide_eq_true_iff]

/-! ## The active bin as a target (step 1 of R125) -/

theorem activeBin_of_getRun {k : Fin 16} {r : Run} (hr : s.getRun k = some r) : s.activeBin k = r.active := by
  simp only [State.activeBin, hr, Option.bind_some]

theorem activeTarget_eq_some_iff {t : Target} :
    activeTarget s p = some t ↔
      ∃ b, s.activeBin p.key.run = some b ∧ targetTakes s p (.bin b) = true ∧ t = .bin b := by
  simp only [activeTarget, targetTakes, Option.map_eq_some_iff, Option.filter_eq_some_iff, and_assoc, eq_comm (a := t)]

theorem activeTarget_eq_none_iff :
    activeTarget s p = none ↔ ∀ b, s.activeBin p.key.run = some b → targetTakes s p (.bin b) = false := by
  simp only [activeTarget, targetTakes, Option.map_eq_none_iff, Option.filter_eq_none_iff, Bool.not_eq_true]

theorem activeTarget_takes {t : Target} (h : activeTarget s p = some t) : targetTakes s p t = true := by
  obtain ⟨b, -, htakes, rfl⟩ := activeTarget_eq_some_iff.1 h
  exact htakes

/-! ## A spill (step 2 of R125) -/

/-- A bin that is not FREE has a place in the table, so an update of it is seen. -/
theorem getBin_modBin_of_ne_free {b : Fin 24} (f : Bin → Bin) (h : (s.getBin b).state ≠ .free) :
    (modBin b f s).getBin b = f (s.getBin b) := by
  cases hb : s.bins[b.val]? with
  | none => simp [State.getBin, List.getD_eq_getElem?_getD, hb, Bin.initial] at h
  | some q => simp [State.getBin, modBin, List.getD_eq_getElem?_getD, hb]

theorem fillActive_of_not_owned (h : ∀ b, s.activeBin p.key.run = some b → (s.getBin b).state ≠ .owned) :
    fillActive p s = s := by
  unfold fillActive
  split
  next => rfl
  next b hb => exact if_neg (by simp [h b hb])

/-- An OWNED active bin becomes FULL, and its notice shows it as it stood. -/
theorem fillActive_of_owned {b : Fin 24} (hb : s.activeBin p.key.run = some b) (ho : (s.getBin b).state = .owned)
    (ht : targetTakes s p (.bin b) = false) :
    fillActive p s =
      notify (.binFull b (s.getBin b).owner (s.getBin b).height (s.binCapacity b) (s.getBin b).packets.length)
        (modBin b (fun q => { q with state := .full }) s) := by
  have hbt : binTakes s p b = false := ht
  have hbin := getBin_modBin_of_ne_free (fun q => { q with state := .full }) (s := s) (b := b) (by simp [ho])
  simp only [fillActive, hb, ho, hbt, binFullNotice, hbin, beq_self_eq_true, Bool.not_false, Bool.and_self, if_true]
  rfl

@[simp] theorem fillActive_getRun (p : Packet) (s : State) (k : Fin 16) : (fillActive p s).getRun k = s.getRun k := by
  rw [fillActive_eq]; rfl

theorem FillOrder.bins_eq (o : FillOrder) : o.bins = if o = .ascending then allBins else allBins.reverse := by
  cases o <;> rfl

section
variable {r : Run} (hr : s.getRun p.key.run = some r)
include hr

theorem spill_of_none (h : spillBin (fillActive p s) p.key.run r = none) : spill p s = fillActive p s := by
  simp only [spill, fillActive_getRun, hr, h]

theorem spill_of_free {b : Fin 24} (h : spillBin (fillActive p s) p.key.run r = some b)
    (hb : ((fillActive p s).getBin b).state = .free) : spill p s = claim p.key.run b (fillActive p s) := by
  simp only [spill, fillActive_getRun, hr, h, hb, beq_self_eq_true, if_true]

theorem spill_of_owned {b : Fin 24} (h : spillBin (fillActive p s) p.key.run r = some b)
    (hb : ((fillActive p s).getBin b).state = .owned) :
    spill p s = modRun p.key.run (fun q => { q with active := some b }) (fillActive p s) := by
  simp only [spill, fillActive_getRun, hr, h, hb]
  rfl

end

/-! ## The selection (R125) -/

theorem selectTarget_of_active {t : Target} (h : activeTarget s p = some t) : selectTarget p s = (s, some t) := by
  simp only [selectTarget, h]

theorem selectTarget_of_spill {t : Target} (h : activeTarget s p = none) (ht : activeTarget (spill p s) p = some t) :
    selectTarget p s = (spill p s, some t) := by
  simp only [selectTarget, h, ht]

theorem selectTarget_of_shelf (h : activeTarget s p = none) (ht : activeTarget (spill p s) p = none) :
    selectTarget p s =
      (spill p s, if targetTakes (spill p s) p .shelf = true then some .shelf else none) := by
  simp only [selectTarget, h, ht]
  rfl

/-- Whichever step of R125 found the target, it takes the packet in the state the selection leaves. -/
theorem selectTarget_takes {u : State} {t : Target} (h : selectTarget p s = (u, some t)) : targetTakes u p t = true := by
  cases ha : activeTarget s p with
  | some t' =>
    rw [selectTarget_of_active ha] at h
    cases h
    exact activeTarget_takes ha
  | none =>
    cases hv : activeTarget (spill p s) p with
    | some t' =>
      rw [selectTarget_of_spill ha hv] at h
      cases h
      exact activeTarget_takes hv
    | none =>
      rw [selectTarget_of_shelf ha hv] at h
      split at h
      next htakes => cases h; exact htakes
      next => cases h

/-- At its level the shuttle drops a packet that its target takes (R127). -/
theorem checkAtLevel_of_takes {t : Target} (ht : s.shuttle.target = some t) (h : targetTakes s p t = true) :
    checkAtLevel p s = dropStart t p s := by
  simp only [checkAtLevel, ht, Option.filter_some, h, if_true]

/-! ## The standing offers and the arbitration (R121, R122) -/

theorem offer_eq_some_iff {x : CompilerId} {o : CompilerId × Packet} :
    s.offer x = some o ↔ o.1 = x ∧ (s.comp x).state = .ready ∧ (s.comp x).packet = some o.2 := by
  obtain ⟨y, q⟩ := o
  by_cases hs : (s.comp x).state = .ready
  · cases hp : (s.comp x).packet <;> simp [State.offer, hs, hp, eq_comm]
  · simp [State.offer, hs]

theorem mem_offers_iff {o : CompilerId × Packet} : o ∈ s.offers ↔ s.offer .a = some o ∨ s.offer .b = some o := by
  unfold State.offers
  split
  next q q' ha hb =>
    rw [ha, hb]
    split <;> simp [eq_comm, or_comm]
  all_goals
    rename_i ha hb
    simp [ha, hb, eq_comm]

/-- Negating a negative 16-bit difference gives a positive one, but for the difference that is its own negation. -/
theorem toInt_neg_of_msb {d : BitVec 16} (h : d.msb = true) : 0 ≤ (-d).toInt ∨ (-d).toInt = -32768 := by
  have hd := BitVec.msb_eq_decide d
  rw [h] at hd
  have hle : 32768 ≤ d.toNat := by simpa using hd.symm
  have hlt := d.isLt
  rw [BitVec.toInt_eq_toNat_cond, BitVec.toNat_neg]
  omega

/-- Two standing offers are in order of packet sequence. -/
theorem offers_ordered {o o' : CompilerId × Packet} (h : s.offers = [o, o']) :
    0 ≤ (o'.2.seq - o.2.seq).toInt ∨ (o'.2.seq - o.2.seq).toInt = -32768 := by
  unfold State.offers at h
  split at h
  next q q' ha hb =>
    split at h
    next hbefore =>
      cases h
      rw [← neg_sub]
      exact toInt_neg_of_msb hbefore
    next hnot =>
      cases h
      exact .inl (BitVec.toInt_nonneg_of_msb_false (by simpa [seqBefore] using hnot))
  all_goals cases h

theorem arbitrate_of_docked (hd : s.shuttle.state = .docked) (hs : s.shuttle.suspended = false)
    (hp : s.shuttle.packet = none) : arbitrate s = takeOffers s.offers s := if_pos ⟨hd, hs, hp⟩

theorem arbitrate_of_busy (h : s.shuttle.state ≠ .docked ∨ s.shuttle.suspended = true ∨ s.shuttle.packet ≠ none) :
    arbitrate s = s := if_neg (by
  rintro ⟨hd, hs, hp⟩
  simp [hd, hs, hp] at h)

theorem takeOffers_of_target {x : CompilerId} {rest : List (CompilerId × Packet)} {u : State} {t : Target}
    (h : selectTarget p s = (u, some t)) : takeOffers ((x, p) :: rest) s = grant x t u := by
  simp only [takeOffers, h]

theorem takeOffers_of_noTarget {x : CompilerId} {rest : List (CompilerId × Packet)} {u : State}
    (h : selectTarget p s = (u, none)) :
    takeOffers ((x, p) :: rest) s = takeOffers rest (markUndeliverable x p u) := by
  simp only [takeOffers, h]

/-! ## The grant and the undeliverable mark (R121, R123) -/

theorem grant_eq (x : CompilerId) (t : Target) (s : State) :
    grant x t s = paceTest (modComp x (fun c =>
      { c with
        state := .transfer, undeliverable := false, transferStart := s.now,
        transfer := if s.pins.front = true then none else some (after s.now (c.tTransfer + 5000)) })
      { s with
        shuttle := { s.shuttle with
          state := .loading, granted := some x, target := some t, level := 0,
          free := some (after s.now
            ((s.comp x).tTransfer + (2 * (s.tBase + t.level * s.tLevel) + s.tDrop))) } }) := by
  refine congrArg paceTest (modComp_congr ?_)
  cases x <;> rfl

@[simp] theorem modComp_activeBin (x : CompilerId) (f : Compiler → Compiler) (s : State) (k : Fin 16) :
    (modComp x f s).activeBin k = s.activeBin k := by cases x <;> rfl

theorem markUndeliverable_eq (x : CompilerId) (p : Packet) {s u v : State}
    (hu : u = modComp x (fun c => { c with undeliverable := true, blockedSent := true }) s)
    (hv : v = (if (s.comp x).blockedSent = true then u
      else notify (.deliveryBlocked (some x) none p (s.activeBin p.key.run)) u)) :
    markUndeliverable x p s = (if (s.comp x).undeliverable = true then v else paceTest v) := by
  subst hu hv
  simp only [markUndeliverable, modComp_activeBin]

/-! ## The obligation -/

/-- Settles O46: a packet whose active bin does not take it goes on by `fillActive`, then the search of `spill`, then the active
bin again or the shelf. -/
theorem targetsTakeAPacketByThreeTests : Obligations.TargetsTakeAPacketByThreeTests := by
  refine ⟨targetTakes_bin_iff, targetTakes_shelf_iff, fun s u p t => selectTarget_takes,
    fun s p t => checkAtLevel_of_takes, fun p r s hr => ⟨fun b hb ht => ?_, fun hact => ?_⟩, fun s => ?_,
    fun x p rest s u => ⟨rfl, fun t => takeOffers_of_target, takeOffers_of_noTarget⟩,
    fun x t p s => ⟨_, _, grant_eq x t s, rfl, rfl, markUndeliverable_eq x p rfl rfl⟩⟩
  · exact selectTarget_of_active (activeTarget_eq_some_iff.2 ⟨b, (activeBin_of_getRun hr).trans hb, ht, rfl⟩)
  · have hbin := activeBin_of_getRun hr
    have hnone : activeTarget s p = none := activeTarget_eq_none_iff.2 (by rwa [hbin])
    refine ⟨fillActive p s, spill p s, fun hne => fillActive_of_not_owned (by rwa [hbin]),
      fun b hb ho => fillActive_of_owned (hbin.trans hb) ho (hact b hb), ?_, fun b hb ht => ?_, fun hno => ?_⟩
    · rintro found bins rfl rfl
      rw [← FillOrder.bins_eq]
      exact ⟨spill_of_none hr, fun b hfound => ⟨spill_of_free hr hfound, spill_of_owned hr hfound⟩⟩
    · exact selectTarget_of_spill hnone (activeTarget_eq_some_iff.2 ⟨b, hb, ht, rfl⟩)
    · exact selectTarget_of_shelf hnone (activeTarget_eq_none_iff.2 hno)
  · refine ⟨arbitrate_of_busy, arbitrate_of_docked, fun x p => ?_, fun _ _ => offers_ordered⟩
    rw [mem_offers_iff, offer_eq_some_iff, offer_eq_some_iff]
    cases x <;> simp

end Sys2Proof.Machine
end

section
/-! PROOFS. The events of the bins and the shelf (R136 to R138, R141): a door opening, the two ways a door closes on an OPEN bin,
and the events that change one reading. -/

namespace Sys2Proof.Machine

variable {b : Fin 24} {pre st : BinState} {s : State}

/-! ## A bin's new state (R122, R127, R135) -/

/-- A bin that becomes FREE or OWNED may give a packet its target. -/
theorem settleBin_of_receptive (b : Fin 24) (s : State) (h : st = .free ∨ st = .owned) :
    settleBin b st s = retryWaiting (arbitrate (modBin b (fun q => { q with state := st }) s)) := if_pos h

theorem settleBin_of_unreceptive (b : Fin 24) (s : State) (hf : st ≠ .free) (ho : st ≠ .owned) :
    settleBin b st s = modBin b (fun q => { q with state := st }) s := if_neg (by simp [hf, ho])

theorem settleReleased_of_ownerless (st : BinState) (h : (s.getBin b).owner = none) :
    settleReleased b st s = settleBin b st s := if_neg (by simp [h])

theorem settleReleased_of_owner (st : BinState) (h : (s.getBin b).owner ≠ none) :
    settleReleased b st s = releaseBin b st s := if_pos (Option.isSome_iff_ne_none.2 h)

/-! ## A collected bin (the table of R137) -/

theorem settleCollected_claimed_of_open (h : pre = .owned ∨ pre = .full) (ho : ownerOpen s b = true) :
    settleCollected b pre s = settleBin b .owned s := by
  rcases h with rfl | rfl <;> exact if_pos ho

theorem settleCollected_claimed_of_closed (h : pre = .owned ∨ pre = .full) (ho : ownerOpen s b = false) :
    settleCollected b pre s = settleReleased b .free s := by
  rcases h with rfl | rfl <;> exact if_neg (by simp [ho])

theorem settleCollected_out_of_open (ho : ownerOpen s b = true) :
    settleCollected b .out s = settleBin b .out s := if_pos ho

theorem settleCollected_out_of_closed (ho : ownerOpen s b = false) :
    settleCollected b .out s = settleReleased b .out s := if_neg (by simp [ho])

theorem settleCollected_of_unclaimed (b : Fin 24) (s : State) (h : pre = .free ∨ pre = .held) :
    settleCollected b pre s = settleReleased b .free s := by
  rcases h with rfl | rfl <;> rfl

/-- Whether a bin's owner run is OPEN depends on the bin's owner and the run table only. -/
theorem ownerOpen_congr {t : State} (hb : (t.getBin b).owner = (s.getBin b).owner) (hr : t.runs = s.runs) :
    ownerOpen t b = ownerOpen s b := by
  simp only [ownerOpen, State.runHas, State.getRun, hb, hr]

/-! ## A door closing on an OPEN bin (R137) -/

/-- The state with the door of a bin read closed, at its input and in the bin. -/
def doorClosed (b : Fin 24) (s : State) : State :=
  modBin b (fun q => { q with door := false }) { s with pins := Pins.setDoor b false s.pins }

/-- The state with a collected bin's list emptied and its notice sent, before the bin takes its new state. -/
def collected (b : Fin 24) (s : State) : State :=
  notify (.binCollected b (ownerLabel s (s.getBin b).owner) (s.getBin b).packets.length)
    (modBin b (fun q => { q with packets := [], preOpen := none }) (doorClosed b s))

theorem doorClosed_getBin (b : Fin 24) (h : s.bins.length = 24) :
    (doorClosed b s).getBin b = { s.getBin b with door := false } := getBin_modBin h b _

theorem collected_ownerOpen (b : Fin 24) (h : s.bins.length = 24) : ownerOpen (collected b s) b = ownerOpen s b := by
  refine ownerOpen_congr ?_ (notify_runs _ _)
  rw [collected, getBin_notify, getBin_modBin (by simpa [doorClosed] using h), doorClosed_getBin b h]

/-- A door that closes on an OPEN bin restores it or collects it. -/
theorem closeDoor_of_opened (hb : s.bins.length = 24) (hs : (s.getBin b).state = .opened)
    (hpre : (s.getBin b).preOpen = some pre) :
    closeDoor b s = if (s.getBin b).paper then restoreBin b pre (modBin b (fun q => { q with door := false }) s)
      else collect b pre (modBin b (fun q => { q with door := false }) s) := by
  simp only [closeDoor, getBin_modBin hb, hpre, hs, if_true]

theorem collect_doorClosed (b : Fin 24) (pre : BinState) (h : s.bins.length = 24) :
    collect b pre (doorClosed b s) = settleCollected b pre (collected b s) := by
  simp only [collect, doorClosed_getBin b h]
  rfl

section
variable (hl : s.loading = false) (hb : s.bins.length = 24) (hs : (s.getBin b).state = .opened)
  (hpre : (s.getBin b).preOpen = some pre)
include hl hb hs hpre

theorem exec_binDoorClose_of_paper (hp : (s.getBin b).paper = true) :
    exec (.binDoorClose b) s = .next (restoreBin b pre (doorClosed b s)) := by
  rw [exec_binDoorClose hl, closeDoor_of_opened (s := modPins (Pins.setDoor b false) s) hb hs hpre]
  exact congrArg _ (if_pos hp)

theorem exec_binDoorClose_of_noPaper (hp : (s.getBin b).paper = false) :
    exec (.binDoorClose b) s = .next (settleCollected b pre (collected b s)) := by
  rw [exec_binDoorClose hl, closeDoor_of_opened (s := modPins (Pins.setDoor b false) s) hb hs hpre,
    ← collect_doorClosed b pre hb]
  exact congrArg _ (if_neg (Bool.eq_false_iff.1 hp))

end

/-! ## A door opening (R136) -/

theorem openDoor_of_not_opened {q : Bin} (h : q.state ≠ .opened) :
    q.openDoor = { q with door := true, preOpen := some q.state, state := .opened } := if_neg h

theorem openDoor_of_opened {q : Bin} (h : q.state = .opened) : q.openDoor = { q with door := true } := if_pos h

theorem openDoor_state (q : Bin) : q.openDoor.state = .opened := by
  by_cases h : q.state = .opened
  · rw [openDoor_of_opened h]; exact h
  · rw [openDoor_of_not_opened h]

theorem targetTakes_of_opened (h : (s.getBin b).state = .opened) (p : Packet) : targetTakes s p (.bin b) = false := by
  rw [Bool.eq_false_iff, Ne, targetTakes_bin_iff, h]
  rintro ⟨⟨hst, -⟩, -⟩
  cases hst

/-! ## The obligations -/

/-- Settles O53: the door's closing is taken apart by the paper reading, the collected bin by the table of R137. -/
theorem doorClosingCollectsOrRestores : Obligations.DoorClosingCollectsOrRestores := by
  refine ⟨fun b st s => ⟨settleBin_of_receptive b s, settleBin_of_unreceptive b s, settleReleased_of_ownerless st,
    settleReleased_of_owner st⟩, fun b pre s hl hb hs hpre => ⟨doorClosed b s, rfl, ?_, ?_⟩⟩
  · exact exec_binDoorClose_of_paper hl hb hs hpre
  · intro v hp hv
    change v = collected b s at hv
    rw [exec_binDoorClose_of_noPaper hl hb hs hpre hp, ← collected_ownerOpen b hb, hv]
    refine ⟨fun h ho => ?_, fun h ho => ?_, fun h ho => ?_, fun h ho => ?_, fun h => ?_⟩
    · rw [settleCollected_claimed_of_open h ho]
    · rw [h, settleCollected_out_of_open ho]
    · rw [settleCollected_claimed_of_closed h ho]
    · rw [h, settleCollected_out_of_closed ho]
    · rw [settleCollected_of_unclaimed b _ h]

/-- Settles O45: outside the load each event is its own equation. -/
theorem readingEventsAndTheShelf : Obligations.ReadingEventsAndTheShelf := fun _ hl =>
  ⟨exec_compilerPaperPresent hl, exec_binPaperPresent hl, exec_binPaperAbsent hl, exec_shelfNotEmpty hl, exec_shuttleHome hl,
    exec_shelfEmpty hl⟩

/-- Settles O52: the opened bin is its update, the other bins stand, and an OPEN bin fails the first test of R124. -/
theorem doorOpeningKeepsTheBin : Obligations.DoorOpeningKeepsTheBin := by
  intro b s hl hb
  have hbin : (modBin b Bin.openDoor (modPins (Pins.setDoor b true) s)).getBin b = (s.getBin b).openDoor :=
    getBin_modBin hb b _
  refine ⟨_, exec_binDoorOpen hl b, rfl, fun c hc => getBin_modBin_ne _ hc, fun h => ?_, fun h => ?_, fun p => ?_⟩
  · rw [hbin, openDoor_of_not_opened h]
  · rw [hbin, openDoor_of_opened h]
  · exact targetTakes_of_opened (by rw [hbin, openDoor_state]) p

end Sys2Proof.Machine
end

section
/-! PROOFS. Resume (R153): the owner's answer in each transport state, and the request that carries it. -/

namespace Sys2Proof.Machine

variable {s : State}

/-! ## The owner of Resume by transport state -/

theorem ownResume_of_recover (p : List Byte) (h : s.tracker.transport = .recover) :
    ownResume p s =
      ({ s with tracker := { s.tracker with transport := .off }, recovery := none },
        okAnswer [byte (s.setRecs.countP (fun x => x.state == .recovering))]) := by
  rw [ownResume, h]; rfl

theorem ownResume_of_halt (p : List Byte) (h : s.tracker.transport = .halt) : ownResume p s = (s, refusal .halted [0]) := by
  rw [ownResume, h]; rfl

theorem ownResume_of_working (p : List Byte)
    (h : s.tracker.transport = .off ∨ s.tracker.transport = .spinup ∨ s.tracker.transport = .run) :
    ownResume p s = (s, refusal .notFound [0]) := by
  rcases h with h | h | h <;> (rw [ownResume, h]; rfl)

/-! ## The request -/

/-- A Resume that is taken is answered by its owner. -/
theorem exec_resume {q : Byte} {u : State} {a : Answer} (h : RequestsTaken s) (ho : ownResume [] s.hunted = (u, a)) :
    exec (.resume q []) s = .next (u.replied 0x06 q a.status a.reason a.body) :=
  congrArg _ (takeRequest_answer h rfl ho)

/-- Settles O57: the owner answers by the transport state alone, which the receiver's return to HUNT leaves as it was. -/
theorem resumeClearsTheList : Obligations.ResumeClearsTheList := by
  refine fun q s h => ⟨fun ht => ?_, fun ht => ?_, fun ht => ?_⟩
  · exact exec_resume h (ownResume_of_recover (s := s.hunted) [] ht)
  · exact exec_resume h (ownResume_of_halt (s := s.hunted) [] ht)
  · exact exec_resume h (ownResume_of_working (s := s.hunted) [] ht)

end Sys2Proof.Machine
end

section
/-! PROOFS. What every command keeps (R66 and the capacities): one command after the other, the laws of Safety.lean by the lemmas
of Laws/, and the steps they add up to. -/

namespace Sys2Proof.Machine

variable {s t : State}

/-! ## Requests as frames (R161) -/

/-- A request command is a complete frame of its kind. -/
theorem exec_of_requestOf {c : Instr} {k q : Byte} {p : List Byte} (h : requestOf c = some (k, q, p)) (s : State) :
    exec c s = .next (takeFrame k q p s) := by
  cases c <;> simp only [requestOf, Option.some.injEq, Prod.mk.injEq, reduceCtorEq] at h <;>
    (obtain ⟨rfl, rfl, rfl⟩ := h; rfl)

/-! ## Timers of the path (R36, R37, R41, R53, R55, R65, R66) -/

/-- A move of a running state that no state of the load makes. -/
theorem Sound.ofRunning (h : Sound s) (hload : ¬ LoadLaw s) (hrun : Lawful 4 s → Lawful 4 t) (ho : t.outer = s.outer) :
    Sound t := by
  rcases Bool.eq_false_or_eq_true s.loading with hl | hl
  · exact absurd (h.load hl) hload
  · exact sound_of_lawful (hrun (h.lawful hl)) ((loading_of_outer ho).trans hl)

/-- During the load no spin-up or idle timer runs, no record stands on the path and no entry in the queue (R176). -/
theorem not_loadLaw_of_spinup (h : s.tracker.spinup.isSome = true) : ¬ LoadLaw s :=
  fun ⟨_, _, hn, _⟩ => by simp [hn] at h
theorem not_loadLaw_of_idle (h : s.tracker.idle.isSome = true) : ¬ LoadLaw s :=
  fun ⟨_, _, _, hn, _⟩ => by simp [hn] at h
theorem not_loadLaw_of_record {i : Nat} {r : PathRec} (h : s.tracker.path[i]? = some r) : ¬ LoadLaw s :=
  fun ⟨_, _, _, _, hn, _⟩ => by simp [hn] at h
theorem not_loadLaw_of_entry {e : Entry} {es : List Entry} (h : s.queue = e :: es) : ¬ LoadLaw s :=
  fun ⟨_, _, _, _, _, hn, _⟩ => by simp [hn] at h

theorem isSome_of_expired {now : Tick} {d : Option Tick} (h : expired now d = true) : d.isSome = true := by
  cases d with
  | none => exact absurd h (by simp [expired])
  | some d => rfl

theorem sound_spinupEnd (h : Sound s) : ∃ t, exec .spinupEnd s = .next t ∧ Sound t := by
  refine ⟨_, rfl, ?_⟩
  split
  · rename_i he
    have hs := isSome_of_expired he
    exact h.ofRunning (not_loadLaw_of_spinup hs) (fun hr => lawful_enterRun hr hs) (by simp)
  · exact h

theorem lawful_idleExpiry (h : Lawful 4 s) (hi : s.tracker.idle.isSome = true) :
    Lawful 4 { s with
      tracker := { s.tracker with transport := .off, idle := none }, router := { s.router with spacing := none },
      guard := none } := by
  obtain ⟨hs, ⟨⟨hspin, hidle, _, _⟩, hc, hcalm, hrec⟩, hp, hr⟩ := h
  obtain ⟨hrun, hq, hpath⟩ := hidle hi
  rw [hrun] at hspin hcalm hrec
  refine ⟨hs.of hs.link rfl rfl rfl, ⟨⟨fun e => ?_, by simp, fun e => absurd hpath e, fun e => absurd hq e⟩, hc,
    fun _ => hcalm (by decide), fun e => ?_⟩, hp, hr⟩
  · exact absurd (hspin e) (by decide)
  · exact absurd (hrec e) (by decide)

theorem sound_idleExpiry (h : Sound s) : ∃ t, exec .idleExpiry s = .next t ∧ Sound t := by
  refine ⟨_, rfl, ?_⟩
  split
  · rename_i he
    have hi := isSome_of_expired he
    exact h.ofRunning (not_loadLaw_of_idle hi) (fun hr => lawful_idleExpiry hr hi) rfl
  · exact h

/-- Marking the head LATE changes no law. -/
theorem lawful_lateHead {e : Entry} {es : List Entry} (h : Lawful 4 s) (hq : s.queue = e :: es) :
    Lawful 4 { s with queue := { e with late := true } :: es } := by
  obtain ⟨hs, ⟨⟨hspin, hidle, hpath, hqueue⟩, hc, hcalm, hrec⟩, ⟨hcap, hlen, hkind⟩, hr⟩ := h
  rw [hq] at hidle hqueue hcap
  refine ⟨hs.of hs.link rfl rfl rfl, ⟨⟨hspin, fun e => ?_, hpath, fun _ => hqueue (by simp)⟩, hc, hcalm, hrec⟩,
    ⟨hcap, hlen, hkind⟩, hr⟩
  exact absurd (hidle e).2.1 (by simp)

theorem sound_entryLate (h : Sound s) : ∃ t, exec .entryLate s = .next t ∧ Sound t := by
  refine ⟨_, rfl, ?_⟩
  split
  · rename_i e es w hq hw
    split
    · exact h.ofRunning (not_loadLaw_of_entry hq) (fun hr => lawful_notify _ (lawful_lateHead hr hq)) (outer_notify _ _)
    · exact h
  · exact h

theorem sound_sheetMissing (h : Sound s) : ∃ t, exec .sheetMissing s = .next t ∧ Sound t := by
  refine ⟨_, rfl, ?_⟩
  split
  · rename_i e es w hq hw
    split
    · exact h.ofRunning (not_loadLaw_of_entry hq) (fun hr => lawful_notify _ (lawful_removeFrom 0 hr)) (by simp)
    · exact h
  · exact h

theorem sound_guardEnd (h : Sound s) : ∃ t, exec .guardEnd s = .next t ∧ Sound t := by
  refine ⟨_, rfl, ?_⟩
  split
  · rw [sound_iff] at h ⊢; exact h
  · exact h

/-- A stage or deadline acts on a record of the path and its deadline. -/
theorem record_of_bind {o : Option PathRec} {f : PathRec → Option Deadline} {r : PathRec} {d : Deadline}
    (h : o.bind (fun r => (f r).map (fun d => (r, d))) = some (r, d)) : o = some r ∧ f r = some d := by
  simp only [Option.bind_eq_some_iff, Option.map_eq_some_iff, Prod.mk.injEq] at h
  obtain ⟨q, hq, c, hc, rfl, rfl⟩ := h
  exact ⟨hq, hc⟩

/-- A deadline's jam (R53, R55). -/
theorem sound_jamOfRecord (k : JamKind) (x : Sensor) {i : Nat} {r : PathRec} (d : Option Tick) (h : Sound s)
    (hi : s.tracker.path[i]? = some r) : Sound (jamOfRecord k x r d s) :=
  h.ofRunning (not_loadLaw_of_record hi) (lawful_jamOfRecord k x r d) (outer_jamOfRecord _ _ _ _ _)

theorem sound_slipStage (i : Nat) (h : Sound s) : ∃ t, exec (.slipStage i) s = .next t ∧ Sound t := by
  refine ⟨_, rfl, ?_⟩
  split
  · exact h
  · rename_i r d hd
    split
    · exact h.ofRunning (not_loadLaw_of_record (record_of_bind hd).1)
        (fun hr => lawful_notify _ (lawful_modRec hr i _ (fun _ => rfl))) (by simp)
    · exact h

theorem sound_lateJamStage (i : Nat) (h : Sound s) : ∃ t, exec (.lateJamStage i) s = .next t ∧ Sound t := by
  refine ⟨_, rfl, ?_⟩
  split
  · exact h
  · rename_i r d hd
    split
    · exact sound_jamOfRecord _ _ _ h (record_of_bind hd).1
    · exact h

theorem sound_clearDeadlineExpiry (i : Nat) (h : Sound s) : ∃ t, exec (.clearDeadlineExpiry i) s = .next t ∧ Sound t := by
  refine ⟨_, rfl, ?_⟩
  split
  · exact h
  · rename_i r d hd
    split
    · exact sound_jamOfRecord _ _ _ h (record_of_bind hd).1
    · exact h

/-! ## Timers of the delivery side (R96, R102 to R107, R129, R130) -/

/-- What every operation of the delivery side keeps: the stores, and everything outside it. -/
def DeliverySide (s t : State) : Prop := (Stores 4 s → Stores 4 t) ∧ t.base = s.base

theorem DeliverySide.refl (s : State) : DeliverySide s s := ⟨id, rfl⟩
theorem Sound.deliverySide (h : Sound s) (e : DeliverySide s t) : Sound t := h.base (e.1 h.1) e.2

theorem deliverySide_releaseSpacingEnd (s : State) : ∃ t, exec .releaseSpacingEnd s = .next t ∧ DeliverySide s t := by
  refine ⟨_, rfl, ?_⟩
  split
  · exact ⟨fun h => by simp [h], by simp⟩
  · exact .refl s

theorem deliverySide_settleEnd (x : CompilerId) (s : State) : ∃ t, exec (.settleEnd x) s = .next t ∧ DeliverySide s t := by
  refine ⟨_, rfl, ?_⟩
  split
  · split
    · exact ⟨fun h => by simp [h], by simp⟩
    · split
      · exact ⟨fun h => by simp [h], by simp⟩
      · exact ⟨fun h => by simp [h], by simp⟩
  · exact .refl s

theorem deliverySide_jogEnd (x : CompilerId) (s : State) : ∃ t, exec (.jogEnd x) s = .next t ∧ DeliverySide s t := by
  refine ⟨_, rfl, ?_⟩
  split
  · exact .refl s
  · split
    · exact ⟨fun h => by simp [h], by simp⟩
    · exact .refl s

theorem deliverySide_reportTimerExpiry (x : CompilerId) (s : State) :
    ∃ t, exec (.reportTimerExpiry x) s = .next t ∧ DeliverySide s t := by
  refine ⟨_, rfl, ?_⟩
  split
  · exact .refl s
  · split
    · exact ⟨fun h => by simp [h], by simp⟩
    · exact .refl s

theorem deliverySide_transferTimerExpiry (x : CompilerId) (s : State) :
    ∃ t, exec (.transferTimerExpiry x) s = .next t ∧ DeliverySide s t := by
  refine ⟨_, rfl, ?_⟩
  split
  · exact ⟨fun h => by simp [h], by simp⟩
  · exact .refl s

theorem deliverySide_dropEnd (s : State) : ∃ t, exec .dropEnd s = .next t ∧ DeliverySide s t := by
  refine ⟨_, rfl, ?_⟩
  split
  · exact ⟨fun h => by simp [h], by simp⟩
  · exact .refl s

theorem deliverySide_moveTimeout (s : State) : ∃ t, exec .moveTimeout s = .next t ∧ DeliverySide s t := by
  refine ⟨_, rfl, ?_⟩
  split
  · exact .refl s
  · split
    · exact ⟨fun h => by simp [h], by simp⟩
    · exact .refl s

/-! ## Events at the mechanism port (R176) -/

/-- An event of the delivery side that touches no cover of the path. -/
theorem sound_takeDelivery {pin : Pins → Pins} {event : State → State} (h : Sound s)
    (hf : ∀ p, (pin p).front = p.front ∧ (pin p).top = p.top) (he : ∀ u, DeliverySide u (event u)) :
    Sound (takeEvent pin event s) :=
  sound_deliveryEvent h hf (fun u => (he u).1) (fun u => (he u).2)

theorem setCompPaper_covers (x : CompilerId) (v : Bool) (p : Pins) :
    (Pins.setCompPaper x v p).front = p.front ∧ (Pins.setCompPaper x v p).top = p.top := by
  cases x <;> exact ⟨rfl, rfl⟩
theorem setCart_covers (x : CompilerId) (v : Bool) (p : Pins) :
    (Pins.setCart x v p).front = p.front ∧ (Pins.setCart x v p).top = p.top := by
  cases x <;> exact ⟨rfl, rfl⟩

theorem lawful_paperAbsent (x : CompilerId) (u : State) (h : Lawful 4 u) :
    Lawful 4 (leaveTest (endRunningTransfer x (modComp x (fun c => { c with paper := false }) u))) := by
  refine lawful_leaveTest (h.base ?_ (by simp))
  simp [h.stores]

theorem lawful_sensorLead (x : Sensor) (u : State) (h : Lawful 4 u) : Lawful 4 ((if x = .s0 then leadAtS0 else leadAt x) u) := by
  split
  · exact lawful_leadAtS0 h
  · exact lawful_leadAt x h

theorem lawful_sensorClear (x : Sensor) (u : State) (h : Lawful 4 u) :
    Lawful 4 (clearEvent x (if x = .s0 then s0ClearRec else clearOfRec x) u) := by
  refine lawful_clearEvent x _ (fun v i r hv hi hc _ => ?_) h
  split
  · rename_i hx
    subst hx
    exact lawful_s0ClearRec i r hi hc hv
  · rename_i hx
    exact lawful_clearOfRec x hx i r hv

theorem outer_sensorLead (x : Sensor) (u : State) : ((if x = .s0 then leadAtS0 else leadAt x) u).outer = u.outer := by
  split <;> simp
theorem outer_sensorClear (x : Sensor) (u : State) :
    (clearEvent x (if x = .s0 then s0ClearRec else clearOfRec x) u).outer = u.outer := by
  refine outer_clearEvent x _ (fun i r v => ?_) u
  split <;> simp

theorem deliverySide_positionReached (s : State) : DeliverySide s (match s.shuttle.move with
    | none => s
    | some m =>
      if s.shuttle.state = .fault then s
      else if s.shuttle.suspended then modShuttle (fun h => { h with reachedMark := true }) s
      else moveEnd m s) := by
  split
  · exact .refl s
  · repeat' split
    · exact .refl s
    · exact ⟨fun h => by simp [h], by simp⟩
    · exact ⟨fun h => by simp [h], by simp⟩

theorem deliverySide_strokeReport (x : CompilerId) (f : Bool) (s : State) : DeliverySide s (match (s.comp x).close with
    | none => s
    | some p => if p.report.isNone then s else if f then strokeFormed x s else strokeNotFormed x p s) := by
  split
  · exact .refl s
  · repeat' split
    · exact .refl s
    · exact ⟨fun h => by simp [h], by simp⟩
    · exact ⟨fun h => by simp [h], by simp⟩

/-- Every event of the mechanism port keeps the laws, and what it leaves outside is its own pin. -/
theorem sound_event {c : Instr} {pin : Pins → Pins} (hc : pinsOf c = some pin) (h : Sound s) :
    ∃ t, exec c s = .next t ∧ Sound t := by
  cases c
  case s0Lead => exact ⟨_, rfl, sound_pathEvent h (fun _ => ⟨rfl, rfl⟩) (fun _ => lawful_leadAtS0) outer_leadAtS0⟩
  case s0Clear => exact ⟨_, rfl, sound_pathEvent h (fun _ => ⟨rfl, rfl⟩) (lawful_sensorClear .s0) (outer_sensorClear .s0)⟩
  case sensorLead x => exact ⟨_, rfl, sound_pathEvent h (fun _ => ⟨rfl, rfl⟩) (lawful_sensorLead x) (outer_sensorLead x)⟩
  case sensorClear x => exact ⟨_, rfl, sound_pathEvent h (fun _ => ⟨rfl, rfl⟩) (lawful_sensorClear x) (outer_sensorClear x)⟩
  case coverOpen c => exact ⟨_, rfl, sound_takeEvent h (lawful_openCover c) (outer_openCover _ _)⟩
  case coverClose c => exact ⟨_, rfl, sound_takeEvent h (lawful_closeCover c) (outer_closeCover _ _)⟩
  case strokeReport x f => exact ⟨_, rfl, sound_takeDelivery h (fun _ => ⟨rfl, rfl⟩) (deliverySide_strokeReport x f)⟩
  case compilerPaperAbsent x =>
    exact ⟨_, rfl, sound_pathEvent h (setCompPaper_covers x false) (lawful_paperAbsent x) (fun u => by
      rw [outer_leaveTest, outer_of_base (base_endRunningTransfer x _), outer_modComp])⟩
  case compilerPaperPresent x =>
    exact ⟨_, rfl, sound_takeDelivery h (setCompPaper_covers x true) (fun u => ⟨fun hu => by simp [hu], by simp⟩)⟩
  case cartridgeInserted x =>
    exact ⟨_, rfl, sound_takeDelivery h (setCart_covers x true) (fun u => ⟨fun hu => by simp [hu], by simp⟩)⟩
  case cartridgeRemoved x =>
    exact ⟨_, rfl, sound_takeDelivery h (setCart_covers x false) (fun u => ⟨fun hu => by simp [hu], by simp⟩)⟩
  case positionReached => exact ⟨_, rfl, sound_takeDelivery h (fun _ => ⟨rfl, rfl⟩) deliverySide_positionReached⟩
  case shuttleHome v =>
    exact ⟨_, rfl, sound_takeDelivery h (fun _ => ⟨rfl, rfl⟩) (fun u => ⟨fun hu => by simp [hu], by simp⟩)⟩
  case towerOpen =>
    exact ⟨_, rfl, sound_takeDelivery h (fun _ => ⟨rfl, rfl⟩) (fun u =>
      ⟨fun hu => stores_paceTest (stores_modShuttle _ (stores_notify _ hu)), by simp⟩)⟩
  case towerClose =>
    exact ⟨_, rfl, sound_takeDelivery h (fun _ => ⟨rfl, rfl⟩) (fun u =>
      ⟨fun hu => stores_resumeShuttle (stores_paceTest (stores_modShuttle _ (stores_notify _ hu))), by simp⟩)⟩
  case binDoorOpen b =>
    exact ⟨_, rfl, sound_takeDelivery h (fun _ => ⟨rfl, rfl⟩) (fun u => ⟨fun hu => by simp [hu], by simp⟩)⟩
  case binDoorClose b =>
    exact ⟨_, rfl, sound_takeDelivery h (fun _ => ⟨rfl, rfl⟩) (fun u => ⟨fun hu => by simp [hu], by simp⟩)⟩
  case binPaperPresent b =>
    exact ⟨_, rfl, sound_takeDelivery h (fun _ => ⟨rfl, rfl⟩) (fun u => ⟨fun hu => by simp [hu], by simp⟩)⟩
  case binPaperAbsent b =>
    exact ⟨_, rfl, sound_takeDelivery h (fun _ => ⟨rfl, rfl⟩) (fun u => ⟨fun hu => by simp [hu], by simp⟩)⟩
  case shelfEmpty =>
    exact ⟨_, rfl, sound_takeDelivery h (fun _ => ⟨rfl, rfl⟩)
      (fun u => ⟨fun hu => stores_targetEvent (hu.of hu.link rfl rfl rfl), base_targetEvent _⟩)⟩
  case shelfNotEmpty =>
    exact ⟨_, rfl, sound_takeDelivery h (fun _ => ⟨rfl, rfl⟩) (fun u => ⟨fun hu => hu.of hu.link rfl rfl rfl, rfl⟩)⟩
  all_goals simp [pinsOf] at hc

/-! ## The link and the power-on commands (R160, R165, R169, R176) -/

theorem sound_frameSent (h : Sound s) : Sound (frameSent s) := by
  unfold frameSent
  repeat' split
  · exact sound_powerOn _ _ _
  · exact h
  · exact h.base (stores_modLink _ h.1 (linkWithin_sendNext h.1.link)) (base_modLink _ _)

theorem sound_byteTaken (b : Byte) (h : Sound s) : ∃ t, exec (.byteTaken b) s = .next t ∧ Sound t := by
  refine ⟨_, rfl, ?_⟩
  split
  · split
    · exact sound_rx _ h
    · exact h
  · unfold takeLength; split
    · exact sound_rx _ h
    · exact sound_discard _ _ h
  · exact sound_rx _ h
  · unfold takeCheck; dsimp only; repeat' split
    · exact sound_rx _ h
    · exact sound_takeFrame _ _ _ h
    · exact sound_discard _ _ h

/-! ## The step -/

/-- Every command keeps the laws. -/
theorem sound_exec (c : Instr) (h : Sound s) : ∃ t, exec c s = .next t ∧ Sound t := by
  cases hp : pinsOf c with
  | some pin => exact sound_event hp h
  | none =>
    cases hr : requestOf c with
    | some f => exact ⟨_, exec_of_requestOf hr s, sound_takeFrame _ _ _ h⟩
    | none =>
      cases c
      case resetRelease => exact ⟨_, rfl, sound_powerOn _ _ _⟩
      case profileLoadEnd =>
        refine ⟨_, rfl, ?_⟩
        split
        · rename_i hl; exact sound_endLoad h hl
        · exact h
      case frameDiscard d =>
        refine ⟨_, rfl, ?_⟩
        split
        · exact sound_discard _ _ h
        · exact h
      case interByteTimeout =>
        refine ⟨_, rfl, ?_⟩
        split
        · exact sound_discard _ _ h
        · exact h
      case txFrameEnd => exact ⟨_, rfl, sound_frameSent h⟩
      case restartFullTakeEffect =>
        refine ⟨_, rfl, ?_⟩
        split
        · exact sound_powerOn _ _ _
        · exact h
      case spinupEnd => exact sound_spinupEnd h
      case idleExpiry => exact sound_idleExpiry h
      case entryLate => exact sound_entryLate h
      case sheetMissing => exact sound_sheetMissing h
      case guardEnd => exact sound_guardEnd h
      case slipStage i => exact sound_slipStage i h
      case lateJamStage i => exact sound_lateJamStage i h
      case clearDeadlineExpiry i => exact sound_clearDeadlineExpiry i h
      case releaseSpacingEnd => exact (deliverySide_releaseSpacingEnd s).imp fun _ e => ⟨e.1, h.deliverySide e.2⟩
      case settleEnd x => exact (deliverySide_settleEnd x s).imp fun _ e => ⟨e.1, h.deliverySide e.2⟩
      case jogEnd x => exact (deliverySide_jogEnd x s).imp fun _ e => ⟨e.1, h.deliverySide e.2⟩
      case reportTimerExpiry x => exact (deliverySide_reportTimerExpiry x s).imp fun _ e => ⟨e.1, h.deliverySide e.2⟩
      case transferTimerExpiry x => exact (deliverySide_transferTimerExpiry x s).imp fun _ e => ⟨e.1, h.deliverySide e.2⟩
      case dropEnd => exact (deliverySide_dropEnd s).imp fun _ e => ⟨e.1, h.deliverySide e.2⟩
      case moveTimeout => exact (deliverySide_moveTimeout s).imp fun _ e => ⟨e.1, h.deliverySide e.2⟩
      case byteTaken b => exact sound_byteTaken b h
      all_goals simp [pinsOf, requestOf] at hp hr

/-- Settles O4: a step is a tick, which no law reads, or a command, each of which keeps the laws. -/
theorem stepKeepsTheDeviceLaw : Obligations.StepKeepsTheDeviceLaw := by
  intro s t h hst
  have hs : Sound s := sound_iff.2 h
  refine sound_iff.1 ?_
  cases hp : s.pending with
  | nil =>
    rw [step, hp] at hst
    cases hst
    exact sound_tick hs
  | cons c rest =>
    rw [step, hp] at hst
    obtain ⟨u, hu, hsu⟩ := sound_exec c (sound_pending rest hs)
    cases hu.symm.trans hst
    exact hsu

end Sys2Proof.Machine
end

section
/-! PROOFS. The frame of every command: what it leaves of the clock, the load flag, the input levels, the configuration memory
and the commands that wait, by the equations of Laws/Outer. -/

namespace Sys2Proof.Machine

variable {s t : State}

theorem takeEvent_outer {pin : Pins → Pins} {event : State → State} (he : ∀ u, (event u).outer = u.outer) (s : State) :
    (takeEvent pin event s).outer = (s.loading, s.now, s.image, s.pending, pin s.pins) := outer_takeEvent pin event he s

theorem outer_paperAbsent (x : CompilerId) (u : State) :
    (leaveTest (endRunningTransfer x (modComp x (fun c => { c with paper := false }) u))).outer = u.outer := by
  rw [outer_leaveTest, outer_of_base (base_endRunningTransfer x _), outer_modComp]

theorem outer_of_deliverySide (h : DeliverySide s t) : t.outer = s.outer := outer_of_base h.2

/-- An event at the mechanism port changes of these the input levels alone, and those by its own level. -/
theorem outer_event {c : Instr} {pin : Pins → Pins} (hc : pinsOf c = some pin) (s : State) :
    ∃ t, exec c s = .next t ∧ t.outer = (s.loading, s.now, s.image, s.pending, pin s.pins) := by
  cases c <;> simp only [pinsOf, Option.some.injEq, reduceCtorEq] at hc <;> subst hc
  case s0Lead => exact ⟨_, rfl, takeEvent_outer outer_leadAtS0 s⟩
  case s0Clear => exact ⟨_, rfl, takeEvent_outer (outer_sensorClear .s0) s⟩
  case sensorLead x => exact ⟨_, rfl, takeEvent_outer (outer_sensorLead x) s⟩
  case sensorClear x => exact ⟨_, rfl, takeEvent_outer (outer_sensorClear x) s⟩
  case coverOpen c => exact ⟨_, rfl, takeEvent_outer (outer_openCover c) s⟩
  case coverClose c => exact ⟨_, rfl, takeEvent_outer (outer_closeCover c) s⟩
  case strokeReport x f =>
    exact ⟨_, rfl, takeEvent_outer (fun u => outer_of_deliverySide (deliverySide_strokeReport x f u)) s⟩
  case compilerPaperAbsent x => exact ⟨_, rfl, takeEvent_outer (outer_paperAbsent x) s⟩
  case compilerPaperPresent x => exact ⟨_, rfl, takeEvent_outer (outer_modComp x _) s⟩
  case cartridgeInserted x => exact ⟨_, rfl, takeEvent_outer (outer_modComp x _) s⟩
  case cartridgeRemoved x => exact ⟨_, rfl, takeEvent_outer (fun u => outer_of_base (by simp)) s⟩
  case positionReached => exact ⟨_, rfl, takeEvent_outer (fun u => outer_of_deliverySide (deliverySide_positionReached u)) s⟩
  case shuttleHome v => refine ⟨_, rfl, takeEvent_outer (fun u => ?_) s⟩; rfl
  case towerOpen => exact ⟨_, rfl, takeEvent_outer (fun u => outer_of_base (by simp)) s⟩
  case towerClose => exact ⟨_, rfl, takeEvent_outer (fun u => outer_of_base (by simp)) s⟩
  case binDoorOpen b => exact ⟨_, rfl, takeEvent_outer (outer_modBin b _) s⟩
  case binDoorClose b => exact ⟨_, rfl, takeEvent_outer (fun u => outer_of_base (base_closeDoor b u)) s⟩
  case binPaperPresent b => exact ⟨_, rfl, takeEvent_outer (outer_modBin b _) s⟩
  case binPaperAbsent b => exact ⟨_, rfl, takeEvent_outer (outer_modBin b _) s⟩
  case shelfEmpty =>
    refine ⟨_, rfl, takeEvent_outer (fun u => ?_) s⟩
    exact outer_of_base (base_targetEvent _)
  case shelfNotEmpty => refine ⟨_, rfl, takeEvent_outer (fun u => ?_) s⟩; rfl

/-- A command that starts or ends a load, or may start one (R165, R169, R176). -/
def TurnsLoad (c : Instr) : Prop :=
  c = .resetRelease ∨ c = .restartFullTakeEffect ∨ c = .txFrameEnd ∨ c = .profileLoadEnd

theorem outer_byteTaken (b : Byte) (s : State) : ∃ t, exec (.byteTaken b) s = .next t ∧ t.outer = s.outer := by
  refine ⟨_, rfl, ?_⟩
  split
  · split <;> rfl
  · unfold takeLength; split
    · rfl
    · exact outer_discardFrame _ _ _
  · rfl
  · unfold takeCheck; dsimp only; repeat' split
    · rfl
    · exact outer_takeFrame _ _ _ _
    · exact outer_discardFrame _ _ _

theorem outer_of_exists (h : ∃ t, exec c s = .next t ∧ DeliverySide s t) : ∃ t, exec c s = .next t ∧ t.outer = s.outer :=
  h.imp fun _ e => ⟨e.1, outer_of_deliverySide e.2⟩

/-- Any other command changes none of them. -/
theorem outer_exec {c : Instr} (hp : pinsOf c = none) (hn : ¬ TurnsLoad c) (s : State) :
    ∃ t, exec c s = .next t ∧ t.outer = s.outer := by
  cases hr : requestOf c with
  | some f => exact ⟨_, exec_of_requestOf hr s, outer_takeFrame _ _ _ s⟩
  | none =>
    cases c
    case frameDiscard d => refine ⟨_, rfl, ?_⟩; split <;> simp
    case interByteTimeout => refine ⟨_, rfl, ?_⟩; split <;> simp
    case spinupEnd => refine ⟨_, rfl, ?_⟩; split <;> simp
    case idleExpiry => refine ⟨_, rfl, ?_⟩; split <;> rfl
    case entryLate =>
      refine ⟨_, rfl, ?_⟩
      repeat' split
      · exact outer_notify _ _
      · rfl
      · rfl
    case sheetMissing =>
      refine ⟨_, rfl, ?_⟩
      repeat' split
      · simp
      · rfl
      · rfl
    case guardEnd => refine ⟨_, rfl, ?_⟩; split <;> rfl
    case slipStage i =>
      refine ⟨_, rfl, ?_⟩
      repeat' split
      · rfl
      · simp
      · rfl
    case lateJamStage i =>
      refine ⟨_, rfl, ?_⟩
      repeat' split
      · rfl
      · simp
      · rfl
    case clearDeadlineExpiry i =>
      refine ⟨_, rfl, ?_⟩
      repeat' split
      · rfl
      · simp
      · rfl
    case releaseSpacingEnd => exact outer_of_exists (deliverySide_releaseSpacingEnd s)
    case settleEnd x => exact outer_of_exists (deliverySide_settleEnd x s)
    case jogEnd x => exact outer_of_exists (deliverySide_jogEnd x s)
    case reportTimerExpiry x => exact outer_of_exists (deliverySide_reportTimerExpiry x s)
    case transferTimerExpiry x => exact outer_of_exists (deliverySide_transferTimerExpiry x s)
    case dropEnd => exact outer_of_exists (deliverySide_dropEnd s)
    case moveTimeout => exact outer_of_exists (deliverySide_moveTimeout s)
    case byteTaken b => exact outer_byteTaken b s
    all_goals simp [pinsOf, requestOf, TurnsLoad] at hp hr hn

/-- The end of the load clears the load flag (R176). -/
theorem outer_endLoad (s : State) : (endLoad s).outer = (false, s.now, s.image, s.pending, s.pins) := by
  have hmask : ∀ u : State, (latchMask u).outer = u.outer := fun _ => rfl
  have hup : ∀ u : State, (startBlocks u).outer = u.outer := fun _ => rfl
  simp only [endLoad]
  rw [outer_paceTest, outer_powerOnCheck, hup, outer_latchPathMedia, outer_profileFaultNotice, hmask, outer_loadGroups]
  rfl

theorem exec_profileLoadEnd_of_loading (h : s.loading = true) : exec .profileLoadEnd s = .next (endLoad s) := by
  rw [exec, execProfileLoadEnd, if_pos h]

/-- Outside the load PROFILE_LOAD_END does nothing (log 30). -/
theorem exec_profileLoadEnd_of_running (h : s.loading = false) : exec .profileLoadEnd s = .next s := by
  rw [exec, execProfileLoadEnd, if_neg (by simp [h])]

/-- Settles O3: the frame of an event is its own input level, that of a power-on the levels, the memory and the queue, and any
other command leaves all five parts. -/
theorem everyCommandCompletes : Obligations.EveryCommandCompletes := by
  intro c s
  cases hp : pinsOf c with
  | some pin =>
    obtain ⟨t, ht, ho⟩ := outer_event hp s
    simp only [State.outer, Prod.mk.injEq] at ho
    obtain ⟨hl, hn, hi, hq, hpins⟩ := ho
    exact ⟨t, ht, hq, hi, hpins, fun _ _ _ => ⟨hn, fun _ => hl⟩⟩
  | none =>
    by_cases hc : TurnsLoad c
    · rcases hc with rfl | rfl | rfl | rfl
      · exact ⟨_, rfl, rfl, rfl, rfl, fun h => absurd rfl h⟩
      · refine ⟨_, rfl, ?_, ?_, ?_, fun _ h => absurd rfl h⟩ <;> split <;> rfl
      · refine ⟨_, rfl, ?_, ?_, ?_, fun _ _ h => absurd rfl h⟩ <;> simp only [frameSent] <;> repeat' split
        all_goals rfl
      · by_cases hl : s.loading = true
        · have ho := outer_endLoad s
          simp only [State.outer, Prod.mk.injEq] at ho
          obtain ⟨-, hn, hi, hq, hpins⟩ := ho
          exact ⟨endLoad s, exec_profileLoadEnd_of_loading hl, hq, hi, hpins, fun _ _ _ => ⟨hn, fun h => absurd rfl h⟩⟩
        · exact ⟨s, exec_profileLoadEnd_of_running (by simpa using hl), rfl, rfl, rfl, fun _ _ _ => ⟨rfl, fun _ => rfl⟩⟩
    · obtain ⟨t, ht, ho⟩ := outer_exec hp hc s
      simp only [State.outer, Prod.mk.injEq] at ho
      obtain ⟨hl, hn, hi, hq, hpins⟩ := ho
      exact ⟨t, ht, hq, hi, hpins, fun _ _ _ => ⟨hn, fun _ => hl⟩⟩

end Sys2Proof.Machine
end

section
/-! PROOFS. Steps and ticks (R48; logs 1, 2): which expiries join the queue at a tick. -/

namespace Sys2Proof.Machine

variable {c : Instr} {s : State}

/-! ## What is due -/

theorem mem_dueIf {b : Bool} {d : Instr} : c ∈ dueIf b d ↔ b = true ∧ c = d := by
  cases b <;> simp [dueIf]

theorem mem_dueOfRec {i : Nat} {r : PathRec} : c ∈ dueOfRec s i r ↔
    (c = .slipStage i ∧ ∃ d, r.leadDl = some d ∧ r.slip = false ∧ reached s.now (after d.at_ s.tSlip) = true) ∨
    (c = .lateJamStage i ∧ ∃ d, r.leadDl = some d ∧ reached s.now (after d.at_ s.tJam) = true) ∨
    (c = .clearDeadlineExpiry i ∧ ∃ d, r.clearDl = some d ∧ reached s.now d.at_ = true) := by
  simp [dueOfRec, mem_dueIf, Option.any_eq_true, and_comm]

theorem mem_dueOfComp {x : CompilerId} : c ∈ dueOfComp s x ↔
    (c = .settleEnd x ∧ expired s.now (s.comp x).settle = true) ∨
    (c = .jogEnd x ∧ ∃ p, (s.comp x).close = some p ∧ expired s.now p.jogEnd = true) ∨
    (c = .reportTimerExpiry x ∧ ∃ p, (s.comp x).close = some p ∧ expired s.now p.report = true) ∨
    (c = .transferTimerExpiry x ∧ expired s.now (s.comp x).transfer = true) := by
  simp [dueOfComp, mem_dueIf, Option.any_eq_true, and_comm]

theorem mem_dueOfWindow : c ∈ dueOfWindow s ↔ ∃ e es w, s.queue = e :: es ∧ s.window = some w ∧
    ((c = .entryLate ∧ e.late = false ∧ reached s.now (after w s.wEntry) = true) ∨
      (c = .sheetMissing ∧ reached s.now (after w (2 * s.wEntry)) = true)) := by
  unfold dueOfWindow
  split
  · rename_i e es w hq hw
    simp [hq, hw, mem_dueIf, and_comm]
  · rename_i hn
    simp only [List.not_mem_nil, false_iff]
    rintro ⟨e, es, w, hq, hw, -⟩
    exact hn e es w hq hw

theorem mem_dueOfPath : c ∈ s.tracker.path.zipIdx.flatMap (fun p => dueOfRec s p.2 p.1) ↔
    ∃ i r, s.tracker.path[i]? = some r ∧ c ∈ dueOfRec s i r := by
  simp only [List.mem_flatMap, List.mem_zipIdx_iff_getElem?, Prod.exists]
  exact exists_comm

/-- Everything that is due, timer by timer (log 2). -/
theorem mem_dueCommands : c ∈ dueCommands s ↔
    (c = .profileLoadEnd ∧ s.loading = true ∧ Config.loadLimit ≤ s.now.toNat) ∨
    (c = .interByteTimeout ∧ expired s.now s.link.rx.deadline = true) ∨
    (c = .spinupEnd ∧ expired s.now s.tracker.spinup = true) ∨
    (c = .idleExpiry ∧ expired s.now s.tracker.idle = true) ∨
    c ∈ dueOfWindow s ∨
    (c = .guardEnd ∧ expired s.now s.guard = true) ∨
    (∃ i r, s.tracker.path[i]? = some r ∧ c ∈ dueOfRec s i r) ∨
    (c = .releaseSpacingEnd ∧ expired s.now s.router.spacing = true) ∨
    (∃ x, c ∈ dueOfComp s x) ∨
    (c = .dropEnd ∧ expired s.now s.shuttle.dropEnd = true) ∨
    (c = .moveTimeout ∧ ∃ m, s.shuttle.move = some m ∧ expired s.now m.timeout = true) := by
  have hcomp : (∃ x, c ∈ dueOfComp s x) ↔ c ∈ dueOfComp s .a ∨ c ∈ dueOfComp s .b :=
    ⟨fun ⟨x, h⟩ => by cases x; exacts [.inl h, .inr h], fun h => h.elim (⟨.a, ·⟩) (⟨.b, ·⟩)⟩
  simp only [dueCommands, List.mem_append, mem_dueIf, mem_dueOfPath, hcomp, Option.any_eq_true, Bool.and_eq_true,
    decide_eq_true_eq, and_comm, or_assoc]

theorem tick_pending (s : State) : (tick s).pending = dueCommands { s with now := s.now + 1 } := rfl

theorem wEntry_at (n : Tick) (s : State) : ({ s with now := n } : State).wEntry = s.wEntry := rfl
theorem tSlip_at (n : Tick) (s : State) : ({ s with now := n } : State).tSlip = s.tSlip := rfl
theorem tJam_at (n : Tick) (s : State) : ({ s with now := n } : State).tJam = s.tJam := rfl

/-! ## The obligations -/

/-- Settles O1: it is the second arm of the step. -/
theorem stepTakesTheFrontCommand : Obligations.StepTakesTheFrontCommand := fun _ _ _ => rfl

/-- Settles O2: each expiry stands in the queue by its own timer alone, the parts of the queue being told apart by their
commands. -/
theorem emptyQueueLetsATickPass : Obligations.EmptyQueueLetsATickPass := by
  refine ⟨fun s h => by rw [step, h], fun s => ⟨rfl, rfl⟩, by decide, fun s => ?_, fun s => ?_⟩
  · simp [tick_pending, mem_dueCommands, mem_dueOfWindow, mem_dueOfRec, mem_dueOfComp, State.comp]
  · simp [tick_pending, mem_dueCommands, mem_dueOfWindow, mem_dueOfRec, mem_dueOfComp, State.comp, Config.loadLimit, wEntry_at,
      tSlip_at, tJam_at]

end Sys2Proof.Machine
end

section
/-! PROOFS. Power-on and the load (R169, R176, R177) and the control link (R160 to R165): the gates of a request frame, the
notice FIFO, the transmit wire and the receiver, each said once by its cases. -/

namespace Sys2Proof.Machine

variable {s : State}

/-! ## Power-on -/

/-- Settles O5: the load has just begun, with every table at its size, and no byte of the memory is listed. -/
theorem deviceLawHoldsAtReset : Obligations.DeviceLawHoldsAtReset :=
  ⟨sound_iff.1 (sound_powerOn _ _ _), rfl⟩

/-- Settles O6: the release of reset is `State.powerOn` of the inputs, the memory and the waiting commands. -/
theorem resetReleaseStartsAfresh : Obligations.ResetReleaseStartsAfresh := by
  refine fun s => ⟨State.powerOn s.pins s.image s.pending, rfl, rfl, rfl, rfl, rfl, rfl, rfl, rfl, rfl, rfl, rfl, rfl, ?_,
    rfl, rfl, rfl, rfl, rfl, rfl, rfl, rfl, rfl, rfl, rfl, rfl, rfl, rfl⟩
  simp [State.powerOn, Link.initial, Pins.rate]

/-- A command of the mechanism port is an event with its own input level (R176). -/
theorem exec_of_pinsOf {c : Instr} {f : Pins → Pins} (h : pinsOf c = some f) :
    ∃ e : State → State, ∀ s, exec c s = .next (takeEvent f e s) := by
  cases c <;> simp only [pinsOf, Option.some.injEq, reduceCtorEq] at h <;> subst h <;> exact ⟨_, fun _ => rfl⟩

/-- Settles O7: during the load an event is its input level (R176; log 39). -/
theorem loadTakesNoMechanismEvent : Obligations.LoadTakesNoMechanismEvent := by
  intro c f s hl hc
  obtain ⟨e, he⟩ := exec_of_pinsOf hc
  rw [he, takeEvent_load hl]
  rfl

/-! ## Restart FULL (R169, R177) -/

theorem restartDue_iff : restartDue s = true ↔ s.link.restartWait = true ∧ s.link.replies = [] ∧ s.link.wire ≠ none := by
  simp [restartDue, Option.isSome_iff_ne_none, and_assoc]

theorem exec_restartFullTakeEffect_of_due (h : restartDue s = true) :
    exec .restartFullTakeEffect s = .next (State.powerOn s.pins s.image s.pending) := congrArg _ (if_pos h)
theorem exec_restartFullTakeEffect_of_not_due (h : restartDue s ≠ true) : exec .restartFullTakeEffect s = .next s :=
  congrArg _ (if_neg h)
theorem exec_txFrameEnd_of_due (h : restartDue s = true) :
    exec .txFrameEnd s = .next (State.powerOn s.pins s.image s.pending) := congrArg _ (if_pos h)

/-- The restart code is FULL or PATH, else no kind at all (11.1). -/
theorem restartKindOf_of_other {n : Nat} (h0 : n ≠ 0) (h1 : n ≠ 1) : restartKindOf n = none := by
  unfold restartKindOf
  split
  · exact absurd rfl h0
  · exact absurd rfl h1
  · rfl

theorem toNat_ne {b c : Byte} (h : b ≠ c) : b.toNat ≠ c.toNat := fun e => h (BitVec.eq_of_toNat_eq e)

theorem ownRestart_of_unknown {b : Byte} (h0 : b ≠ 0) (h1 : b ≠ 1) (s : State) :
    ownRestart [b] s = (s, refusal .badField []) := by
  have hk : restartKindOf (field [b] 0) = none := restartKindOf_of_other (toNat_ne h0) (toNat_ne h1)
  rw [ownRestart, hk]

/-- Settles O12: the owner sets the wait, and the take-effect looks at the wait, the replies and the wire alone. -/
theorem restartFullWaitsForItsReply : Obligations.RestartFullWaitsForItsReply := by
  refine ⟨fun q s h => ?_, fun s hw hr hx => ?_, fun s hw hr hx => ?_, fun q b s h h0 h1 => ?_, fun s h => ?_⟩
  · exact congrArg _ (takeRequest_answer h rfl (show ownRestart [0] s.hunted = restartFull s.hunted from rfl))
  · have hd := restartDue_iff.2 ⟨hw, hr, hx⟩
    exact ⟨exec_txFrameEnd_of_due hd, exec_restartFullTakeEffect_of_due hd⟩
  · have hd := restartDue_iff.2 ⟨hw, hr, hx⟩
    exact ⟨exec_restartFullTakeEffect_of_due hd, _, exec_restartFullTakeEffect_of_due hd, rfl, rfl, rfl, rfl, rfl, rfl, rfl,
      rfl, rfl, rfl, rfl, rfl, rfl, rfl, rfl, rfl, rfl, rfl, rfl, rfl, rfl, rfl, rfl, rfl, rfl, rfl, rfl, rfl, rfl⟩
  · exact ⟨congrArg _ (takeRequest_answer h rfl (ownRestart_of_unknown h0 h1 _)),
      congrArg _ (takeRequest_answer h rfl (ownRestart_of_unknown h0 h1 _))⟩
  · refine exec_restartFullTakeEffect_of_not_due fun hd => ?_
    obtain ⟨hw, hr, hx⟩ := restartDue_iff.1 hd
    rcases h with h | h | h
    · simp [h] at hw
    · exact h hr
    · exact hx h

/-! ## Request frames (R161, R162, R169) -/

theorem eq_byte_of_toNat {k : Byte} {n : Nat} (h : k.toNat = n) : k = byte n := by
  rw [← h]; simp [byte]
@[simp] theorem byte_toNat (k : Byte) : byte k.toNat = k := (eq_byte_of_toNat rfl).symm

/-- A frame of one of the fifteen kinds goes to that kind's owner with its length, any other to none (11.3). -/
theorem takeFrame_cases (k : Byte) :
    (∃ n own, payloadLength k = some n ∧ ∀ q p s, takeFrame k q p s = takeRequest k.toNat n own q p s) ∨
    (payloadLength k = none ∧ ∀ q p s, takeFrame k q p s = takeUnknown k q s) := by
  by_cases h : 1 ≤ k.toNat ∧ k.toNat ≤ 15
  · obtain ⟨h1, h15⟩ := h
    left
    interval_cases hk : k.toNat <;>
      (obtain rfl := eq_byte_of_toNat hk; exact ⟨_, _, rfl, fun _ _ _ => rfl⟩)
  · refine .inr ⟨?_, fun q p s => ?_⟩
    · rw [payloadLength, List.lookup_eq_none_iff]
      intro c hc
      simp only [List.mem_cons, List.not_mem_nil, or_false] at hc
      rcases hc with rfl | rfl | rfl | rfl | rfl | rfl | rfl | rfl | rfl | rfl | rfl | rfl | rfl | rfl | rfl <;>
        (simp only [bne_iff_ne]; rintro rfl; simp at h)
    · unfold takeFrame
      split <;> first | rfl | omega

/-- A request command is a complete frame of its kind with some taker, which answers UNKNOWN_REQUEST for an unknown kind and
BAD_LENGTH for a wrong length (R161). -/
theorem exec_request {c : Instr} {k q : Byte} {p : List Byte} (h : requestOf c = some (k, q, p)) :
    ∃ f : State → State × Answer, (∀ s, exec c s = .next (takeComplete k q f s)) ∧
      (payloadLength k = none → ∀ s, f s = (s, refusal .unknownRequest [])) ∧
      (∀ n, payloadLength k = some n → p.length ≠ n → ∀ s, f s = (s, refusal .badLength [])) := by
  rcases takeFrame_cases k with ⟨n, own, hk, hf⟩ | ⟨hk, hf⟩
  · refine ⟨checkLength n own p, fun s => ?_, by simp [hk], fun m hm hp s => ?_⟩
    · rw [exec_of_requestOf h, hf, takeRequest, byte_toNat]
    · rw [hk, Option.some.injEq] at hm
      rw [checkLength, if_neg (hm ▸ hp)]
  · exact ⟨fun s => (s, refusal .unknownRequest []), fun s => by rw [exec_of_requestOf h, hf, takeUnknown], fun _ _ => rfl,
      by simp [hk]⟩

section
variable {k q : Byte} {f : State → State × Answer}

theorem takeComplete_of_restarting (h : s.link.restartWait = true) : takeComplete k q f s = s.hunted := by
  simp only [takeComplete, modLink_link, h, if_true]; rfl
theorem takeComplete_of_overrun (h : s.link.restartWait = false) (h4 : 4 ≤ s.link.replies.length) :
    takeComplete k q f s = notify (.linkError .overrun 0 k q) s.hunted := by
  simp [takeComplete, h, Config.replyPlaces, h4]; rfl
theorem takeComplete_of_loading (h : s.link.restartWait = false) (h4 : s.link.replies.length < 4) (hl : s.loading = true) :
    takeComplete k q f s = s.hunted.replied k q .starting none [] := by
  simp [takeComplete, h, Config.replyPlaces, Nat.not_le.2 h4, hl]; rfl
theorem takeComplete_of_answer {u : State} {a : Answer} (h : RequestsTaken s) (hf : f s.hunted = (u, a)) :
    takeComplete k q f s = u.replied k q a.status a.reason a.body := by
  obtain ⟨hl, hw, hr⟩ := h
  have hf' : f (modLink (fun l => { l with rx := Receiver.hunting }) s) = (u, a) := hf
  simp only [takeComplete, modLink_link, modLink_loading, hw, hl, Nat.not_le.2 hr, hf', if_false, Bool.false_eq_true]
  rfl

end

/-- Settles O13: the gates of `takeComplete` come before the taker, whatever it is. -/
theorem requestsAreGated : Obligations.RequestsAreGated := by
  intro c k q p s hc
  obtain ⟨f, hf, hunknown, hlength⟩ := exec_request hc
  rw [hf]
  refine ⟨fun h => ?_, fun h h4 => ?_, fun h h4 hl => ?_, fun h hk => ?_, fun n h hk hp => ?_⟩
  · rw [takeComplete_of_restarting h]
  · rw [takeComplete_of_overrun h h4]
  · rw [takeComplete_of_loading h h4 hl]
  · exact congrArg _ (takeComplete_of_answer h (hunknown hk _))
  · exact congrArg _ (takeComplete_of_answer h (hlength n hk hp _))

/-! ## Notices (R163) and the transmit wire (R165) -/

theorem notify_of_loading (b : NoticeBody) (hl : s.loading = true) : notify b s = s := if_pos hl
theorem notify_of_masked (b : NoticeBody) (hl : s.loading = false) (hm : s.latched.mask.getLsbD (b.kind - 1) = false) :
    notify b s = s := by
  rw [notify, if_neg (by simp [hl]), if_neg (by simp [hm])]
theorem notify_of_enabled (b : NoticeBody) (hl : s.loading = false) (hm : s.latched.mask.getLsbD (b.kind - 1) = true) :
    notify b s = { s with link := s.link.queueNotice s.now b } := by
  rw [notify, if_neg (by simp [hl]), if_pos hm]

theorem queueNotice_of_full {l : Link} (now : Tick) (b : NoticeBody) (h : 16 ≤ l.notices.length) :
    l.queueNotice now b = { l with lost := true } := if_pos h
theorem queueNotice_of_room {l : Link} (now : Tick) (b : NoticeBody) (h : l.notices.length < 16) :
    l.queueNotice now b = Link.wake { l with
      notices := l.notices ++ [{ stamp := l.counter, tick := now, body := b }], counter := l.counter + 1 } :=
  if_neg (Nat.not_le.2 h)

theorem wake_of_busy {l : Link} (h : l.wire ≠ none) : l.wake = l := if_neg (by simpa using h)
theorem wake_of_idle {l : Link} (h : l.wire = none) : l.wake = l.sendNext := if_pos (by simp [h])

theorem sendNext_of_reply {l : Link} {r : Reply} {rs : List Reply} (h : l.replies = r :: rs) :
    l.sendNext = { l with replies := rs, wire := some r.frame } := by
  rw [Link.sendNext, h]
theorem sendNext_of_notice {l : Link} {n : Notice} {ns : List Notice} (h : l.replies = []) (hn : l.notices = n :: ns) :
    l.sendNext = { l with notices := ns, wire := some n.frame } := by
  rw [Link.sendNext, h]; dsimp only; rw [hn]
theorem sendNext_of_none {l : Link} (h : l.replies = []) (hn : l.notices = []) : l.sendNext = { l with wire := none } := by
  rw [Link.sendNext, h]; dsimp only; rw [hn]

/-- Settles O14: the cases of a notice, and of the wire when it joins the FIFO. -/
theorem noticesAreMaskedDroppedOrStamped : Obligations.NoticesAreMaskedDroppedOrStamped := by
  refine fun b s => ⟨notify_of_loading b, notify_of_masked b, fun hl hm hf => ?_, fun hl hm hr hw => ?_,
    fun hl hm hn hr hw => ?_⟩
  · rw [notify_of_enabled b hl hm, queueNotice_of_full _ _ hf]
  · rw [notify_of_enabled b hl hm, queueNotice_of_room _ _ hr, wake_of_busy (by exact hw)]
  · rw [notify_of_enabled b hl hm, queueNotice_of_room _ _ (by simp [hn]), wake_of_idle (by exact hw),
      sendNext_of_notice (by exact hr) (by rw [hn]; rfl), ← hn]

/-- At the end of a frame with no Restart FULL waiting the arbiter chooses (R165). -/
theorem exec_txFrameEnd_of_no_restart (h : s.link.restartWait = false) (hw : s.link.wire ≠ none) :
    exec .txFrameEnd s = .next { s with link := s.link.sendNext } := by
  have hd : restartDue s = false := by simp [restartDue, h]
  rw [exec, execTxFrameEnd, frameSent, if_neg (by simp [hd]), if_neg (by simpa using hw)]
  rfl

/-- Settles O15: the arbiter's choice by what waits. -/
theorem frameEndSendsRepliesFirst : Obligations.FrameEndSendsRepliesFirst := by
  refine fun s h hw => ⟨fun r rs hr => ?_, fun n ns hr hn => ?_, fun hr hn => ?_⟩
  · rw [exec_txFrameEnd_of_no_restart h hw, sendNext_of_reply hr]
  · rw [exec_txFrameEnd_of_no_restart h hw, sendNext_of_notice hr hn]
  · rw [exec_txFrameEnd_of_no_restart h hw, sendNext_of_none hr hn]

/-! ## The receiver (R160) -/

section
variable (b : Byte)

/-- The byte table of R160, by the receiver's state. -/
theorem exec_byteTaken_hunt (h : s.link.rx.state = .hunt) : exec (.byteTaken b) s = .next (if b = 0xD5#8 then
    setRx { state := .length, len := 0, body := [], crc := [], deadline := interByteEnd s.now } s else s) := by
  rw [exec, execByteTaken, h]
theorem exec_byteTaken_length (h : s.link.rx.state = .length) : exec (.byteTaken b) s = .next (takeLength b s) := by
  rw [exec, execByteTaken, h]
theorem exec_byteTaken_body (h : s.link.rx.state = .body) : exec (.byteTaken b) s = .next (takeBody b s) := by
  rw [exec, execByteTaken, h]
theorem exec_byteTaken_check (h : s.link.rx.state = .check) : exec (.byteTaken b) s = .next (takeCheck b s) := by
  rw [exec, execByteTaken, h]

theorem takeLength_of_good (h2 : 2 ≤ b.toNat) (h122 : b.toNat ≤ 122) : takeLength b s =
    setRx { state := .body, len := b.toNat, body := [], crc := [], deadline := interByteEnd s.now } s :=
  if_pos (by simp [h2, h122])
theorem takeLength_of_bad (h : b.toNat < 2 ∨ 122 < b.toNat) : takeLength b s = discardFrame .length 0 s :=
  if_neg (by simp; omega)

theorem takeCheck_first (h : s.link.rx.crc = []) :
    takeCheck b s = setRx { s.link.rx with crc := [b], deadline := interByteEnd s.now } s := by
  rw [takeCheck]; exact if_pos (by simp [h])

theorem crcMatches_iff {rx : Receiver} {x : Byte} (h : rx.crc = [x]) :
    crcMatches rx b = true ↔ [x, b] = le 2 (crc16 (byte rx.len :: rx.body)).toNat := by
  simp [crcMatches, h]

theorem takeCheck_of_good {x : Byte} (h : s.link.rx.crc = [x])
    (hc : [x, b] = le 2 (crc16 (byte s.link.rx.len :: s.link.rx.body)).toNat) :
    takeCheck b s = takeFrame (s.link.rx.body.getD 0 0) (s.link.rx.body.getD 1 0) (s.link.rx.body.drop 2) s := by
  rw [takeCheck]; exact (if_neg (by simp [h])).trans (if_pos ((crcMatches_iff b h).2 hc))
theorem takeCheck_of_bad {x : Byte} (h : s.link.rx.crc = [x])
    (hc : [x, b] ≠ le 2 (crc16 (byte s.link.rx.len :: s.link.rx.body)).toNat) :
    takeCheck b s = discardFrame .crc s.link.rx.len s := by
  rw [takeCheck]; exact (if_neg (by simp [h])).trans (if_neg fun e => hc ((crcMatches_iff b h).1 e))

end

theorem exec_frameDiscard_of_due {c : DiscardCause} (h : discardDue c s.link.rx.state = true) :
    exec (.frameDiscard c) s =
      .next (discardFrame (discardLinkCause c) (if c = .crc then s.link.rx.len else 0) s) := congrArg _ (if_pos h)

theorem exec_interByteTimeout {d : Tick} (hd : s.link.rx.deadline = some d) (h : reached s.now d = true) :
    exec .interByteTimeout s = .next (discardFrame .gap 0 s) := by
  refine congrArg _ (if_pos ?_)
  rw [hd]; exact h

/-- Settles O16: the byte table by the receiver's state, and the four discards. -/
theorem receiverTakesAndDiscards : Obligations.ReceiverTakesAndDiscards := by
  refine fun b s => ⟨fun h hb => ?_, fun h => ?_, fun h h2 h122 => ?_, fun h hb => ?_, fun h => ?_, fun h hc => ?_,
    fun c h hc hbad => ?_, fun h => ?_, fun h => ?_, fun h => ?_, fun h => ?_, fun d hd h => ?_⟩
  · rw [exec_byteTaken_hunt b h, if_neg hb]
  · rw [exec_byteTaken_hunt _ h, if_pos rfl]; rfl
  · rw [exec_byteTaken_length b h, takeLength_of_good b h2 h122]; rfl
  · rw [exec_byteTaken_length b h, takeLength_of_bad b hb]; rfl
  · rw [exec_byteTaken_body b h, takeBody]; simp only [List.length_append, List.length_singleton]; rfl
  · rw [exec_byteTaken_check b h, takeCheck_first b hc]; rfl
  · rw [exec_byteTaken_check b h, takeCheck_of_bad b hc hbad]; rfl
  · rw [exec_frameDiscard_of_due (by simpa [discardDue] using h)]; rfl
  · rw [exec, execFrameDiscard, if_neg (by simp [discardDue, h])]
  · rw [exec_frameDiscard_of_due (by simp [discardDue, h])]; rfl
  · rw [exec_frameDiscard_of_due (by simp [discardDue, h])]; rfl
  · exact exec_interByteTimeout hd h

/-- Settles O17: the byte completes the frame, and the request is that frame too. -/
theorem goodFrameIsItsRequest : Obligations.GoodFrameIsItsRequest := by
  intro c k q p x b s hc h hbody hcrc hgood
  rw [exec_byteTaken_check b h, takeCheck_of_good b hcrc hgood, exec_of_requestOf hc, hbody]
  rfl

end Sys2Proof.Machine
end

section
/-! PROOFS. Parameters (10): the ranges and the clamp (R170, R171), the judged image (R175), the PATH and MEDIA latch with its
fixes (R173, R174) and Restart PATH (R178). -/

namespace Sys2Proof.Machine

variable {s : State}

/-! ## Ranges and the clamp (R170, R171) -/

theorem ranges_ordered (g : Group) : ∀ r ∈ g.ranges, r.1 ≤ r.2 := by cases g <;> decide

theorem Param.low_le_high (p : Param) : p.low ≤ p.high := by
  unfold Param.low Param.high
  by_cases h : p.index < p.group.ranges.length
  · rw [List.getD_eq_getElem _ _ h]
    exact ranges_ordered _ _ (List.getElem_mem h)
  · rw [List.getD_eq_default _ _ (Nat.not_lt.1 h)]

theorem Param.clamp_of_low {p : Param} {v : Nat} (h : v < p.low) : p.clamp v = p.low := if_pos h
theorem Param.clamp_of_high {p : Param} {v : Nat} (h : p.high < v) : p.clamp v = p.high := by
  have := p.low_le_high
  rw [Param.clamp, if_neg (by omega), if_pos h]
theorem Param.clamp_of_within {p : Param} {v : Nat} (hl : p.low ≤ v) (hh : v ≤ p.high) : p.clamp v = v := by
  rw [Param.clamp, if_neg (by omega), if_neg (by omega)]

/-- A clamped value lies in the range. -/
theorem Param.clamp_within (p : Param) (v : Nat) : p.low ≤ p.clamp v ∧ p.clamp v ≤ p.high := by
  have := p.low_le_high
  rcases Nat.lt_or_ge v p.low with hl | hl
  · rw [Param.clamp_of_low hl]; omega
  rcases Nat.lt_or_ge p.high v with hh | hh
  · rw [Param.clamp_of_high hh]; omega
  · rw [Param.clamp_of_within hl hh]; omega

/-! ## The loaded values (R175) -/

/-- A group's values, one for each of its parameters and each in its range. -/
def InRanges (g : Group) (vs : List Nat) : Prop :=
  vs.length = g.ranges.length ∧
    ∀ i : Nat, i < g.ranges.length → (g.ranges.getD i (0, 0)).1 ≤ vs.getD i 0 ∧ vs.getD i 0 ≤ (g.ranges.getD i (0, 0)).2

theorem inRanges_defaults (g : Group) : InRanges g g.defaults := by
  cases g <;> exact ⟨by decide, by decide⟩

/-- A pair whose parameter is of the group keeps every value in its range. -/
theorem inRanges_loadPair {g : Group} {vs : List Nat} {c : Nat × Nat} (h : InRanges g vs)
    (hc : ∀ p, paramOf c.1 = some p → p.group = g) : InRanges g (loadPair vs c) := by
  unfold loadPair
  split
  · exact h
  · rename_i p hp
    obtain rfl := hc p hp
    obtain ⟨hlen, hin⟩ := h
    refine ⟨by simpa using hlen, fun i hi => ?_⟩
    by_cases hpi : p.index = i
    · subst hpi
      have e : (vs.set p.index (p.clamp (p.fromImage c.2))).getD p.index 0 = p.clamp (p.fromImage c.2) := by
        rw [List.getD_eq_getElem _ _ (by simpa [hlen] using hi)]; simp
      rw [e]
      exact p.clamp_within _
    · have e : (vs.set p.index (p.clamp (p.fromImage c.2))).getD i 0 = vs.getD i 0 := by
        simp [List.getD_eq_getElem?_getD, List.getElem?_set_ne hpi]
      rw [e]
      exact hin i hi

/-- A judged group's pairs name its own parameters only: any stranger makes the section bad (R175, ID). -/
theorem judgeSection_pairs {m : List Host.Cell} {g : Group} {c : Nat × Nat} (h : c ∈ (judgeSection m g).2) {p : Param}
    (hp : paramOf c.1 = some p) : p.group = g := by
  unfold judgeSection at h
  dsimp only at h
  repeat' split at h
  all_goals first | exact absurd h List.not_mem_nil | skip
  rename_i hany
  simp only [List.any_eq_true, not_exists, not_and] at hany
  have hs := hany c h
  simp only [strangerPair, hp, Bool.or_eq_true, bne_iff_ne, ne_eq, not_or, not_not] at hs
  exact hs.1

theorem judgeGroup_of_headerBad {m : List Host.Cell} (g : Group) (h : headerBad m = true) :
    judgeGroup m g = (.header, []) := if_pos h

theorem judgeGroup_pairs {m : List Host.Cell} {g : Group} {c : Nat × Nat} (h : c ∈ (judgeGroup m g).2) {p : Param}
    (hp : paramOf c.1 = some p) : p.group = g := by
  unfold judgeGroup at h
  split at h
  · exact absurd h List.not_mem_nil
  · exact judgeSection_pairs h hp

theorem inRanges_foldl {g : Group} (cs : List (Nat × Nat)) (hcs : ∀ c ∈ cs, ∀ p, paramOf c.1 = some p → p.group = g)
    {vs : List Nat} (h : InRanges g vs) : InRanges g (cs.foldl loadPair vs) := by
  induction cs generalizing vs with
  | nil => exact h
  | cons c cs ih =>
    exact ih (fun d hd => hcs d (List.mem_cons_of_mem _ hd)) (inRanges_loadPair h (hcs c List.mem_cons_self))

theorem inRanges_loadedValues (m : List Host.Cell) (g : Group) : InRanges g (loadedValues m g) :=
  inRanges_foldl _ (fun _ hc _ hp => judgeGroup_pairs hc hp) (inRanges_defaults g)

/-- Settles O9: the defaults lie in their ranges, and each pair of a good section puts a clamped value in its own place. -/
theorem loadedValuesLieInTheirRanges : Obligations.LoadedValuesLieInTheirRanges := by
  refine ⟨fun m g h => ?_, inRanges_loadedValues⟩
  rw [profileCause, loadedValues, judgeGroup_of_headerBad g h]
  exact ⟨rfl, rfl⟩

/-! ## The fixes (R174) -/

@[simp] theorem notify_staged (b : NoticeBody) (s : State) : (notify b s).staged = s.staged := by
  rw [notify_eq]
@[simp] theorem paceTest_staged (s : State) : (paceTest s).staged = s.staged := staged_of_base (base_paceTest s)

/-- The staged and the latched PATH values are the list `vs`, and the latched MEDIA values `ms`. -/
structure PathValues (vs ms : List Nat) (s : State) : Prop where
  latched : s.latched.path = vs
  staged : s.staged.path = vs
  media : s.latched.media = ms

theorem PathValues.raise {vs ms : List Nat} (h : PathValues vs ms s) (i v a : Nat) :
    PathValues (vs.set i v) ms (raise i v a s) := by
  unfold Machine.raise
  exact ⟨by simp [h.latched], by simp [h.staged], by simp [h.media]⟩

/-- What the three fixes make of a list of PATH values (R174). -/
def fixedZ2 (vs : List Nat) : List Nat :=
  if vs.getD 0 0 + vs.getD 1 0 < 440 then vs.set 1 (440 - vs.getD 0 0) else vs
def fixedZ4 (vs : List Nat) : List Nat := if vs.getD 4 0 < 440 then vs.set 4 440 else vs
def fixedTJam (vs : List Nat) : List Nat := if vs.getD 15 0 ≤ vs.getD 14 0 then vs.set 15 (vs.getD 14 0 + 10) else vs
def fixedPath (vs : List Nat) : List Nat := fixedTJam (fixedZ4 (fixedZ2 vs))

theorem PathValues.path {vs ms : List Nat} (h : PathValues vs ms s) (i : Nat) : s.path i = vs.getD i 0 := by
  rw [State.path, h.latched]

theorem PathValues.fixZ2 {vs ms : List Nat} (h : PathValues vs ms s) : PathValues (fixedZ2 vs) ms (fixZ2 s) := by
  rw [Machine.fixZ2, fixedZ2, h.path, h.path]
  by_cases hc : vs.getD 0 0 + vs.getD 1 0 < 440
  · rw [if_pos hc, if_pos (show _ < Config.pathBound from hc)]; exact h.raise _ _ _
  · rw [if_neg hc, if_neg (show ¬ _ < Config.pathBound from hc)]; exact h
theorem PathValues.fixZ4 {vs ms : List Nat} (h : PathValues vs ms s) : PathValues (fixedZ4 vs) ms (fixZ4 s) := by
  rw [Machine.fixZ4, fixedZ4, h.path]
  by_cases hc : vs.getD 4 0 < 440
  · rw [if_pos hc, if_pos (show _ < Config.pathBound from hc)]; exact h.raise _ _ _
  · rw [if_neg hc, if_neg (show ¬ _ < Config.pathBound from hc)]; exact h
theorem PathValues.fixTJam {vs ms : List Nat} (h : PathValues vs ms s) : PathValues (fixedTJam vs) ms (fixTJam s) := by
  rw [Machine.fixTJam, fixedTJam, h.path, h.path]
  split
  · exact h.raise _ _ _
  · exact h

theorem length_fixedZ2 (vs : List Nat) : (fixedZ2 vs).length = vs.length := by
  unfold fixedZ2; split <;> simp
theorem length_fixedZ4 (vs : List Nat) : (fixedZ4 vs).length = vs.length := by
  unfold fixedZ4; split <;> simp

theorem getD_set {vs : List Nat} {i : Nat} (hi : i < vs.length) (v j : Nat) :
    (vs.set i v).getD j 0 = if j = i then v else vs.getD j 0 := by
  by_cases h : j = i
  · subst h; simp [List.getD_eq_getElem?_getD, hi]
  · simp [List.getD_eq_getElem?_getD, List.getElem?_set_ne (Ne.symm h), h]

theorem getD_fixedZ2 {vs : List Nat} (h : vs.length = 25) (j : Nat) : (fixedZ2 vs).getD j 0 =
    if j = 1 ∧ vs.getD 0 0 + vs.getD 1 0 < 440 then 440 - vs.getD 0 0 else vs.getD j 0 := by
  unfold fixedZ2
  split
  · rename_i hc; rw [getD_set (by omega)]; simp only [hc, and_true]
  · rename_i hc; simp only [hc, and_false, if_false]
theorem getD_fixedZ4 {vs : List Nat} (h : vs.length = 25) (j : Nat) : (fixedZ4 vs).getD j 0 =
    if j = 4 ∧ vs.getD 4 0 < 440 then 440 else vs.getD j 0 := by
  unfold fixedZ4
  split
  · rename_i hc; rw [getD_set (by omega)]; simp only [hc, and_true]
  · rename_i hc; simp only [hc, and_false, if_false]
theorem getD_fixedTJam {vs : List Nat} (h : vs.length = 25) (j : Nat) : (fixedTJam vs).getD j 0 =
    if j = 15 ∧ vs.getD 15 0 ≤ vs.getD 14 0 then vs.getD 14 0 + 10 else vs.getD j 0 := by
  unfold fixedTJam
  split
  · rename_i hc; rw [getD_set (by omega)]; simp only [hc, and_true]
  · rename_i hc; simp only [hc, and_false, if_false]

/-- The values the three fixes leave (R174): each fix touches its own place alone. -/
theorem getD_fixedPath {vs : List Nat} (h : vs.length = 25) :
    (∀ i : Nat, i ≠ 1 → i ≠ 4 → i ≠ 15 → (fixedPath vs).getD i 0 = vs.getD i 0) ∧
    (fixedPath vs).getD 1 0 = (if vs.getD 0 0 + vs.getD 1 0 < 440 then 440 - vs.getD 0 0 else vs.getD 1 0) ∧
    (fixedPath vs).getD 4 0 = (if vs.getD 4 0 < 440 then 440 else vs.getD 4 0) ∧
    (fixedPath vs).getD 15 0 = (if vs.getD 15 0 ≤ vs.getD 14 0 then vs.getD 14 0 + 10 else vs.getD 15 0) := by
  have e : ∀ j, (fixedPath vs).getD j 0 = _ := fun j =>
    getD_fixedTJam (by rw [length_fixedZ4, length_fixedZ2, h]) j
  have e4 : ∀ j, (fixedZ4 (fixedZ2 vs)).getD j 0 = _ := fun j => getD_fixedZ4 (by rw [length_fixedZ2, h]) j
  simp only [e, e4, getD_fixedZ2 h]
  refine ⟨fun i h1 h4 h15 => ?_, ?_, ?_, ?_⟩ <;> simp_all

/-! ## The PATH and MEDIA latch (R173) -/

@[simp] theorem purgeCapacityTest_latched (w : Bool) (s : State) : (purgeCapacityTest w s).latched = s.latched := by
  unfold purgeCapacityTest
  split
  · rfl
  · rw [paceTest_latched]; split <;> simp
@[simp] theorem purgeCapacityTest_staged (w : Bool) (s : State) : (purgeCapacityTest w s).staged = s.staged :=
  staged_of_base (base_purgeCapacityTest w s)
@[simp] theorem purgeCapacityTest_tracker (w : Bool) (s : State) : (purgeCapacityTest w s).tracker = s.tracker := by
  unfold purgeCapacityTest
  split
  · rfl
  · rw [paceTest_tracker]; split <;> simp

/-- The latch leaves the fixed values staged and in force. -/
theorem pathValues_latchPathMedia (s : State) :
    PathValues (fixedPath s.staged.path) s.staged.media (latchPathMedia s) := by
  have h0 : PathValues s.staged.path s.staged.media
      { s with latched := { s.latched with path := s.staged.path, media := s.staged.media } } := ⟨rfl, rfl, rfl⟩
  have h1 := h0.fixZ2.fixZ4.fixTJam
  simp only [latchPathMedia]
  exact ⟨by simpa [fixedPath] using h1.latched, by simpa [fixedPath] using h1.staged, by simpa using h1.media⟩

theorem travels_latchPathMedia (s : State) :
    (latchPathMedia s).tracker.travels = travelsOf (latchPathMedia s).latched.path := by
  simp only [latchPathMedia, purgeCapacityTest_tracker, purgeCapacityTest_latched, modTracker_tracker, modTracker_latched]

/-- Settles O10: the values are the fixed ones, staged and latched. -/
theorem pathLatchHoldsTheFixes : Obligations.PathLatchHoldsTheFixes := by
  intro s hlen
  have h := pathValues_latchPathMedia s
  obtain ⟨hother, h1, h4, h15⟩ := getD_fixedPath hlen
  have h0 := hother 0 (by decide) (by decide) (by decide)
  have h14 := hother 14 (by decide) (by decide) (by decide)
  refine ⟨h.media, by rw [h.latched, h.staged], ?_, ?_, ?_, travels_latchPathMedia s, fun i i1 i4 i15 => ?_⟩
  · rw [h.path, h.path, h0, h1]; split <;> omega
  · rw [h.path, h4]; split <;> omega
  · rw [h.path, h.path, h14, h15]; split <;> omega
  · rw [h.path, hother i i1 i4 i15]

/-! ## Restart PATH (R178) -/

/-- The two groups staged with their marks. -/
theorem loadGroups_path_media (s : State) : loadGroups [.path, .media] s =
    { s with
      staged := { s.staged with path := loadedValues s.image .path, media := loadedValues s.image .media },
      profileMarks := (s.profileMarks.set 0 (profileCause s.image .path != .none)).set 1
        (profileCause s.image .media != .none) } := by
  simp only [loadGroups, List.foldl_cons, List.foldl_nil, stageLoaded, Staged.withValues, Group.code]

theorem ownRestart_path (s : State) : ownRestart [1] s = restartPath s := rfl

theorem restartPath_of_rest (h : s.tracker.transport = .off ∨ s.tracker.transport = .recover) : restartPath s =
    (latchPathMedia (profileFaultNotice [.path, .media] (loadGroups [.path, .media] s)),
      okAnswer [byte (profileCause s.image .path).code, byte (profileCause s.image .media).code]) := by
  rw [restartPath, if_pos h, restartPathNow]
theorem restartPath_of_busy (h : ¬ (s.tracker.transport = .off ∨ s.tracker.transport = .recover)) :
    restartPath s = (s, refusal .busy (zeros 2)) := by
  rw [restartPath, if_neg h]

/-- A Restart of kind PATH that is taken is answered by its owner. -/
theorem exec_restartPath {q : Byte} {u : State} {a : Answer} (h : RequestsTaken s) (ho : restartPath s.hunted = (u, a)) :
    exec (.restartPath q [1]) s = .next (u.replied 0x0F q a.status a.reason a.body) := by
  rw [exec, execRestartPath, takeRequest_answer (len := 1) h rfl ((ownRestart_path _).trans ho)]; rfl

/-- Settles O11: the owner reloads in OFF and RECOVER and is BUSY elsewhere. -/
theorem restartPathReloadsTwoGroups : Obligations.RestartPathReloadsTwoGroups := by
  refine fun q s h => ⟨fun ho hr => ?_, fun ht => ?_⟩
  · rw [exec_restartPath h (restartPath_of_busy (s := s.hunted) (not_or.2 ⟨ho, hr⟩))]
    rfl
  · rw [exec_restartPath h (restartPath_of_rest (s := s.hunted) ht), loadGroups_path_media]
    rfl

end Sys2Proof.Machine
end

section
/-! PROOFS. The owners of the requests that read, set a parameter, or serve a compiler or a bin (R117, R118, R139, R152, R164,
R166, R167, R171, R172). -/

namespace Sys2Proof.Machine

variable {s : State}

/-! ## A taken request -/

/-- A request command that is taken is answered by its owner (R161). -/
theorem exec_answer {c : Instr} {kind len : Nat} {own : Owner} {q : Byte} {p : List Byte} {u : State} {a : Answer}
    (he : exec c s = .next (takeRequest kind len own q p s)) (h : RequestsTaken s) (hp : p.length = len)
    (ho : own p s.hunted = (u, a)) : exec c s = .next (u.replied (byte kind) q a.status a.reason a.body) := by
  rw [he, takeRequest_answer h hp ho]

theorem toNat_eq_zero_iff {b : Byte} : b.toNat = 0 ↔ b = 0 :=
  ⟨fun h => BitVec.eq_of_toNat_eq h, fun h => by rw [h]; rfl⟩

/-! ## Recovery Query (R152) -/

theorem recoveryBody_eq (l : RecoveryList) (start count : Nat) {es : List RecoveryEntry}
    (he : es = (l.entries.drop start).take count) : recoveryBody l start count =
      [1, byte l.entries.length] ++ l.halt.bytes l.overflow ++ es.flatMap RecoveryEntry.bytes ++
        [byte (if es = [] ∨ l.entries.length ≤ start + es.length then 0xFF else start + es.length)] := by
  simp only [recoveryBody, ← he, List.isEmpty_iff]

theorem ownRecoveryQuery_of_bad {p : List Byte} (h : 31 < field p 0 ∨ field p 1 = 0 ∨ 8 < field p 1) :
    ownRecoveryQuery p s = (s, refusal .badField (zeros 11)) := if_pos h
theorem ownRecoveryQuery_of_none {p : List Byte} (h : ¬ (31 < field p 0 ∨ field p 1 = 0 ∨ 8 < field p 1))
    (hl : s.recovery = none) : ownRecoveryQuery p s = (s, okAnswer noRecoveryBody) := by
  rw [ownRecoveryQuery, if_neg h, hl]
theorem ownRecoveryQuery_of_list {p : List Byte} {l : RecoveryList} (h : ¬ (31 < field p 0 ∨ field p 1 = 0 ∨ 8 < field p 1))
    (hl : s.recovery = some l) : ownRecoveryQuery p s = (s, okAnswer (recoveryBody l (field p 0) (field p 1))) := by
  rw [ownRecoveryQuery, if_neg h, hl]

/-- Settles O56: the owner's checks, then its reply with and without a list. -/
theorem recoveryQueryReadsTheList : Obligations.RecoveryQueryReadsTheList := by
  refine fun q a b s h => ⟨fun hbad => ?_, fun ha hb hb8 hl => ?_, fun l es ha hb hb8 hl he => ?_⟩
  · rw [← toNat_eq_zero_iff] at hbad
    exact exec_answer rfl h rfl (ownRecoveryQuery_of_bad (p := [a, b]) hbad)
  · rw [ne_eq, ← toNat_eq_zero_iff] at hb
    have hg : ¬ (31 < a.toNat ∨ b.toNat = 0 ∨ 8 < b.toNat) := by omega
    exact exec_answer rfl h rfl (ownRecoveryQuery_of_none (s := s.hunted) (p := [a, b]) hg hl)
  · rw [ne_eq, ← toNat_eq_zero_iff] at hb
    have hg : ¬ (31 < a.toNat ∨ b.toNat = 0 ∨ 8 < b.toNat) := by omega
    rw [← recoveryBody_eq l _ _ he]
    exact exec_answer rfl h rfl (ownRecoveryQuery_of_list (s := s.hunted) (p := [a, b]) hg hl)

/-! ## Get Parameter, Status and Read Table (R166, R167, R172) -/

theorem ownGetParameter_of_unknown {p : List Byte} (h : paramOf (field p 0) = none) :
    ownGetParameter p s = (s, refusal .badField (zeros 26)) := by
  rw [ownGetParameter, h]
theorem ownGetParameter_of_param {p : List Byte} {a : Param} (h : paramOf (field p 0) = some a) :
    ownGetParameter p s = (s, okAnswer (parameterBody s (field p 0) a)) := by
  rw [ownGetParameter, h]

theorem latchedValue_hunted (a : Param) (x : CompilerId) : s.hunted.latchedValue a x = s.latchedValue a x := by
  cases x <;> rfl

/-- The fields of a Read Table are good: the bin counts only in BIN_PACKETS (R167). -/
def GoodTableFields (p : List Byte) (t : TableCode) : Prop :=
  ¬ ((t = .binPackets ∧ 23 < field p 1) ∨ field p 3 = 0 ∨ 8 < field p 3 ∨ t.lastIndex < field p 2)

theorem ownReadTable_of_unknown {p : List Byte} (h : tableOf (field p 0) = none) :
    ownReadTable p s = (s, refusal .badField (zeros 2)) := by
  simp only [ownReadTable, h]
theorem ownReadTable_of_bad {p : List Byte} {t : TableCode} (h : tableOf (field p 0) = some t) (hg : ¬ GoodTableFields p t) :
    ownReadTable p s = (s, refusal .badField (zeros 2)) := by
  simp only [ownReadTable, h]
  exact if_pos (not_not.1 hg)
theorem ownReadTable_of_good {p : List Byte} {t : TableCode} (h : tableOf (field p 0) = some t) (hg : GoodTableFields p t) :
    ownReadTable p s = (s, tableAnswer s t (field p 1) (field p 2) (field p 3)) := by
  simp only [ownReadTable, h]
  exact if_neg hg

theorem tableRecords_hunted (b : Nat) (t : TableCode) : tableRecords s.hunted b t = tableRecords s b t := by
  cases t <;> rfl

/-- A table's code is the byte that names it. -/
theorem code_of_tableOf {n : Nat} {t : TableCode} (h : tableOf n = some t) : t.code = n := by
  unfold tableOf at h
  split at h <;> cases h <;> rfl

/-- Settles O59: a reading owner answers with its state as it found it, a Status with the lost flag cleared. -/
theorem readingRequestsChangeNothing : Obligations.ReadingRequestsChangeNothing := by
  refine fun q s h => ⟨fun b hb => ?_, fun b a hb => ?_, ?_, fun a b c d hbad => ?_, fun a b c d t ht hbin hd hd8 hc => ?_⟩
  · exact exec_answer rfl h rfl (ownGetParameter_of_unknown (p := [b]) hb)
  · rw [exec_answer rfl h rfl (ownGetParameter_of_param (s := s.hunted) (p := [b]) hb), parameterBody, latchedValue_hunted,
      latchedValue_hunted, show field [b] 0 = b.toNat from rfl, byte_toNat]
    rfl
  · exact exec_answer rfl h rfl (rfl : ownStatus [] s.hunted = _)
  · rw [← toNat_eq_zero_iff] at hbad
    cases ht : tableOf a.toNat with
    | none => exact exec_answer rfl h rfl (ownReadTable_of_unknown (p := [a, b, c, d]) ht)
    | some t =>
      refine exec_answer rfl h rfl (ownReadTable_of_bad (p := [a, b, c, d]) ht (not_not.2 ?_))
      rw [ht] at hbad
      rcases hbad with e | ⟨e, hb⟩ | hd | hd | ⟨u, hu, hl⟩
      · cases e
      · cases e; exact .inl ⟨rfl, hb⟩
      · exact .inr (.inl hd)
      · exact .inr (.inr (.inl hd))
      · cases hu; exact .inr (.inr (.inr hl))
  · rw [ne_eq, ← toNat_eq_zero_iff] at hd
    have hg : GoodTableFields [a, b, c, d] t := by
      rintro (⟨e, hb⟩ | h0 | h8 | hl)
      · exact absurd (hbin e) (Nat.not_le.2 hb)
      · exact hd h0
      · exact absurd hd8 (Nat.not_le.2 h8)
      · exact absurd hc (Nat.not_le.2 hl)
    rw [exec_answer rfl h rfl (ownReadTable_of_good (s := s.hunted) (p := [a, b, c, d]) ht hg), tableAnswer,
      tableRecords_hunted, code_of_tableOf ht]
    rw [byte_toNat a]
    rfl

/-! ## Notice Mask (R164) -/

theorem ownNoticeMask_of_bad {p : List Byte} (h : 0x7FFFFF < fieldLe p 0 4) :
    ownNoticeMask p s = (s, refusal .badField (zeros 4)) := if_pos h
theorem ownNoticeMask_of_good {p : List Byte} (h : fieldLe p 0 4 ≤ 0x7FFFFF) :
    ownNoticeMask p s =
      ({ s with
          staged := { s.staged with mask := BitVec.ofNat 23 (fieldLe p 0 4) },
          latched := { s.latched with mask := BitVec.ofNat 23 (fieldLe p 0 4) } },
        okAnswer (le 4 (fieldLe p 0 4))) := by
  have hm : (BitVec.ofNat 23 (fieldLe p 0 4)).toNat = fieldLe p 0 4 := by
    rw [BitVec.toNat_ofNat]; exact Nat.mod_eq_of_lt (by omega)
  rw [ownNoticeMask, if_neg (Nat.not_lt.2 h)]
  simp only [latchMask, hm]

/-- Settles O60: the field is the mask, within its 23 flags. -/
theorem noticeMaskIsInForceAtOnce : Obligations.NoticeMaskIsInForceAtOnce :=
  fun _ _ _ h hp => ⟨fun hb => exec_answer rfl h hp (ownNoticeMask_of_bad hb),
    fun hg => exec_answer rfl h hp (ownNoticeMask_of_good hg)⟩

/-! ## Set Parameter (R171) and the DELIVERY latch (R140) -/

theorem overfullBin_of_fits {b : Fin 24} (h : (s.getBin b).height ≤ s.binCapacity b) : overfullBin b s = s :=
  if_neg (by simpa using h)

/-- The Bin Full notice of a bin whose state alone has changed. -/
theorem binFullNotice_modBin {b : Fin 24} {f : Bin → Bin} (h : (s.getBin b).state ≠ .free)
    (ho : (f (s.getBin b)).owner = (s.getBin b).owner) (hp : (f (s.getBin b)).packets = (s.getBin b).packets) :
    binFullNotice (modBin b f s) b =
      .binFull b (s.getBin b).owner (s.getBin b).height (s.binCapacity b) (s.getBin b).packets.length := by
  rw [binFullNotice, getBin_modBin_of_ne_free f h, Bin.height, ho, hp]; rfl

theorem overfullBin_of_owned {b : Fin 24} (h : s.binCapacity b < (s.getBin b).height) (hs : (s.getBin b).state = .owned) :
    overfullBin b s =
      notify (.binFull b (s.getBin b).owner (s.getBin b).height (s.binCapacity b) (s.getBin b).packets.length)
        (modBin b (fun q => { q with state := .full }) s) := by
  have hn := binFullNotice_modBin (f := fun q => { q with state := .full }) (b := b) (s := s) (by simp [hs]) rfl rfl
  simp only [overfullBin, h, hs, decide_true, if_true, beq_self_eq_true, hn]

theorem overfullBin_of_opened {b : Fin 24} (h : s.binCapacity b < (s.getBin b).height) (hs : (s.getBin b).state = .opened)
    (hpre : (s.getBin b).preOpen = some .owned) : overfullBin b s =
      notify (.binFull b (s.getBin b).owner (s.getBin b).height (s.binCapacity b) (s.getBin b).packets.length)
        (modBin b (fun q => { q with preOpen := some .full }) s) := by
  have hn := binFullNotice_modBin (f := fun q => { q with preOpen := some .full }) (b := b) (s := s) (by simp [hs]) rfl rfl
  simp [overfullBin, h, hs, hpre, hn]

theorem overfullBin_of_other {b : Fin 24} (hs : (s.getBin b).state ≠ .owned)
    (hpre : (s.getBin b).state ≠ .opened ∨ (s.getBin b).preOpen ≠ some .owned) : overfullBin b s = s := by
  have h1 : ((s.getBin b).state == .owned) = false := by simpa using hs
  have h2 : ((s.getBin b).state == .opened && (s.getBin b).preOpen == some .owned) = false := by
    rcases hpre with e | e <;> simp [e]
  simp only [overfullBin, h1, h2, Bool.false_eq_true, if_false, ite_self]

theorem ownSetParameter_of_unknown {p : List Byte} (h : paramOf (field p 0) = none) :
    ownSetParameter p s = (s, refusal .badField (zeros 5)) := by
  simp only [ownSetParameter, h]
theorem ownSetParameter_of_flags {p : List Byte} {a : Param} (h : paramOf (field p 0) = some a)
    (hl : a.group = .link ∧ a.high < fieldLe p 1 4) : ownSetParameter p s = (s, refusal .badField (zeros 5)) := by
  simp only [ownSetParameter, h]
  exact if_pos hl
theorem ownSetParameter_of_value {p : List Byte} {a : Param} {t : State} (h : paramOf (field p 0) = some a)
    (hl : ¬ (a.group = .link ∧ a.high < fieldLe p 1 4))
    (ht : t = latchStaged a.group (stage a (a.clamp (fieldLe p 1 4)) s)) : ownSetParameter p s =
      (t, { status := if a.clamp (fieldLe p 1 4) = fieldLe p 1 4 then .ok else .clamped, reason := none,
            body := byte (field p 0) :: le 4 (t.stagedValue a) }) := by
  simp only [ownSetParameter, h, if_neg hl, ← ht]

/-- Settles O58: the owner stages the clamped value and latches its group; an overfull bin is acted on by its state. -/
theorem setParameterStagesTheClampedValue : Obligations.SetParameterStagesTheClampedValue := by
  refine ⟨fun s => rfl, by decide, fun b s => ⟨overfullBin_of_fits, fun h => ⟨overfullBin_of_owned h,
    overfullBin_of_opened h, overfullBin_of_other⟩⟩, fun q p s h hp => ⟨fun hn => ?_, fun a ha => ⟨fun hg hv => ?_,
    fun hg => ?_⟩⟩, fun id v a _ => ?_, fun s => ⟨rfl, rfl, rfl, rfl, fun hd => if_pos hd, fun hd => if_neg hd⟩⟩
  · exact exec_answer rfl h hp (ownSetParameter_of_unknown hn)
  · exact exec_answer rfl h hp (ownSetParameter_of_flags ha ⟨hg, hv⟩)
  · have hl : ¬ (a.group = .link ∧ a.high < fieldLe p 1 4) := fun e => hg.elim (fun g => g e.1) (Nat.not_le.2 e.2)
    exact ⟨_, rfl, exec_answer rfl h hp (ownSetParameter_of_value ha hl rfl)⟩
  · obtain ⟨hlow, hhigh⟩ := a.clamp_within v
    exact ⟨hlow, hhigh, Param.clamp_of_within, Param.clamp_of_low, Param.clamp_of_high⟩

end Sys2Proof.Machine
end

section
/-! PROOFS. The shuttle (7.4, 7.5): the checks at a level, the end of a drop and of a move, the failed move, and the TOWER cover
(R126 to R133). -/

namespace Sys2Proof.Machine

variable {s u : State}

/-! ## Selection, retarget and waiting (R127) -/

theorem eq_of_selectTarget {p : Packet} {o : Option Target} (h : selectTarget p s = (u, o)) :
    u = { s with bins := u.bins, runs := u.runs, link := u.link } := by
  have e := selectTarget_eq p s
  rw [h] at e
  exact e

/-- A retarget after a selection counts from the shuttle as it stood. -/
theorem startRetarget_of_select {p : Packet} {t : Target} (h : selectTarget p s = (u, some t)) :
    startRetarget t u = { u with
      shuttle := { s.shuttle with
        state := .moving, target := some t, waiting := false,
        move := some
          { leg := .retarget, origin := s.shuttle.level, dest := t.level,
            timeout := some (after s.now (legTicks s s.shuttle.level t.level + s.shuttleMargin)) },
        free := some (after s.now (legTicks s s.shuttle.level t.level + s.tDrop + moveTicks s t.level)) } } := by
  rw [eq_of_selectTarget h]; rfl

theorem waitAtLevel_of_select {p : Packet} {o : Option Target} (h : selectTarget p s = (u, o)) :
    waitAtLevel p u =
      if s.shuttle.blockedSent = true then
        { u with shuttle := { s.shuttle with waiting := true, target := none, blockedSent := true } }
      else notify (.deliveryBlocked none (some s.shuttle.level) p (u.activeBin p.key.run))
        { u with shuttle := { s.shuttle with waiting := true, target := none, blockedSent := true } } := by
  have e : u.shuttle = s.shuttle := by rw [eq_of_selectTarget h]
  rw [← e]; rfl

section
variable {p : Packet} (hno : ∀ t : Target, s.shuttle.target = some t → targetTakes s p t = false)
include hno

theorem checkAtLevel_of_select {o : Option Target} (h : selectTarget p s = (u, o)) :
    checkAtLevel p s = o.elim (waitAtLevel p u) (startRetarget · u) := by
  have hf : s.shuttle.target.filter (targetTakes s p) = none :=
    Option.filter_eq_none_iff.2 fun t ht => by simp [hno t ht]
  rw [checkAtLevel, hf]
  dsimp only
  rw [h]
  cases o <;> rfl

end

theorem retryWaiting_of_waiting {p : Packet} {o : Option Target} (hm : s.shuttle.state = .moving) (hw : s.shuttle.waiting = true)
    (hs : s.shuttle.suspended = false) (hp : s.shuttle.packet = some p) (h : selectTarget p s = (u, o)) :
    retryWaiting s = o.elim u (startRetarget · u) := by
  rw [retryWaiting, if_pos ⟨hm, hw, hs⟩, hp]
  dsimp only
  rw [h]
  cases o <;> rfl

theorem retryWaiting_of_not_waiting
    (h : s.shuttle.state ≠ .moving ∨ s.shuttle.waiting = false ∨ s.shuttle.suspended = true ∨ s.shuttle.packet = none) :
    retryWaiting s = s := by
  unfold retryWaiting
  split
  next hc =>
    obtain ⟨hm, hw, hs⟩ := hc
    have hp : s.shuttle.packet = none := by simpa [hm, hw, hs] using h
    rw [hp]
  next => rfl

/-! ## The end of a move (R127 to R130) -/

section
variable {m : Move} (hl : s.loading = false) (hm : s.shuttle.move = some m)
include hl hm

theorem exec_positionReached_of_running (hf : s.shuttle.state ≠ .fault) (hs : s.shuttle.suspended = false) :
    exec .positionReached s = .next (moveEnd m s) := by
  rw [exec_positionReached hl hm hf, hs]; rfl

theorem exec_positionReached_of_suspended (hf : s.shuttle.state ≠ .fault) (hs : s.shuttle.suspended = true) :
    exec .positionReached s = .next (modShuttle (fun h => { h with reachedMark := true }) s) := by
  rw [exec_positionReached hl hm hf, hs]; rfl

end

theorem moveEnd_of_return {m : Move} (s : State) (h : m.leg = .return) : moveEnd m s = dock s := by
  rw [moveEnd, h]

/-- The shuttle at the level where a move ended. -/
def atLevel (m : Move) (s : State) : State :=
  { s with shuttle := { s.shuttle with move := none, reachedMark := false, level := m.dest } }

theorem moveEnd_of_carrying {m : Move} {p : Packet} (h : m.leg ≠ .return) (hp : s.shuttle.packet = some p) :
    moveEnd m s = checkAtLevel p (atLevel m s) := by
  have e : moveEnd m s = arrive m s := by
    rw [moveEnd]
    cases hg : m.leg
    case outbound => rfl
    case retarget => rfl
    · exact absurd hg h
  rw [e]
  show (match s.shuttle.packet with
    | none => atLevel m s
    | some p => checkAtLevel p (atLevel m s)) = _
  rw [hp]

theorem exec_dropEnd {d : Tick} (hd : s.shuttle.dropEnd = some d) (hr : reached s.now d = true) :
    exec .dropEnd s = .next (startReturn s) := by
  show execDropEnd s = _
  rw [execDropEnd, hd, if_pos (show expired s.now (some d) = true from hr)]

/-- The shuttle and its fault notice as a move fails (R130). -/
def faulted (m : Move) (s : State) : State :=
  notify (.shuttleFault m.leg m.origin m.dest s.shuttle.packet) { s with
    shuttle := { s.shuttle with
      state := .fault, move := none, waiting := false, reachedMark := false, cycleMark := s.pins.tower } }

theorem exec_moveTimeout {m : Move} {d : Tick} (hm : s.shuttle.move = some m) (hd : m.timeout = some d)
    (hr : reached s.now d = true) : exec .moveTimeout s = .next (paceTest (loseOnBoard (faulted m s))) := by
  show execMoveTimeout s = _
  rw [execMoveTimeout, hm]
  dsimp only
  rw [hd, if_pos (show expired s.now (some d) = true from hr)]
  rfl

theorem loseOnBoard_of_empty (h : s.shuttle.packet = none) : loseOnBoard s = s := by
  rw [loseOnBoard, h]

theorem loseOnBoard_of_packet {p : Packet} (h : s.shuttle.packet = some p) :
    loseOnBoard s = retireSet p.key (modShuttle (fun h => { h with packet := none, blockedSent := false, target := none })
      (notify (.packetDelivered .nowhere { p with flags := { p.flags with deliveryUncertain := true } }) s)) := by
  rw [loseOnBoard, h]

/-- Settles O47: at the end of the move the check at the level finds the target, another target, or none. -/
theorem arrivalDropsThePacket : Obligations.ArrivalDropsThePacket := by
  refine ⟨fun k s => rfl, fun s hl hm => exec_positionReached_ignored hl (.inl hm), ?_, ?_⟩
  · intro m p s hl hs hst hm hleg hp hno
    have hf : s.shuttle.state ≠ .fault := by simp [hst]
    have hexec := (exec_positionReached_of_running hl hm hf hs).trans (congrArg _ (moveEnd_of_carrying hleg hp))
    have hcheck {v : State} {o : Option Target} (h : selectTarget p (atLevel m s) = (v, o)) :=
      checkAtLevel_of_select (s := atLevel m s) hno h
    refine ⟨atLevel m s, rfl, ?_, ?_⟩
    · rintro t v est h rfl
      rw [hexec, hcheck h]
      exact congrArg _ (startRetarget_of_select h)
    · rintro v w h rfl
      rw [hexec, hcheck h]
      exact congrArg _ (waitAtLevel_of_select h)
  · intro m p t s hl hs hst hm hleg hp ht htakes
    have hf : s.shuttle.state ≠ .fault := by simp [hst]
    have hexec := (exec_positionReached_of_running hl hm hf hs).trans (congrArg _ (moveEnd_of_carrying hleg hp))
    rw [checkAtLevel_of_takes (s := atLevel m s) ht htakes] at hexec
    refine ⟨_, rfl, ?_, ?_⟩
    · rintro b rfl
      exact hexec
    · rintro rfl
      exact hexec

/-- Settles O48: the drop's end starts the return, and the return's end docks. -/
theorem dropEndReturnsToTheDock : Obligations.DropEndReturnsToTheDock := by
  refine ⟨fun d s hd hr => exec_dropEnd hd hr, fun m s hl hs hst hm hleg => ?_⟩
  rw [exec_positionReached_of_running hl hm (by simp [hst]) hs, moveEnd_of_return s hleg]
  rfl

/-- Settles O49: the packet on board is the one the shuttle had before its fault notice. -/
theorem moveTimeoutFaultsTheShuttle : Obligations.MoveTimeoutFaultsTheShuttle := by
  intro m d s hm hd hr
  have hb : (faulted m s).shuttle.packet = s.shuttle.packet := by rw [faulted, notify_shuttle]
  refine ⟨faulted m s, rfl, fun hp => ?_, fun p hp => ?_⟩
  · rw [exec_moveTimeout hm hd hr, loseOnBoard_of_empty (hb.trans hp)]
  · rw [exec_moveTimeout hm hd hr, loseOnBoard_of_packet (hb.trans hp)]

/-! ## The TOWER cover (R131 to R133) -/

theorem faultExit_of_cycled (hh : s.shuttle.home = true) (hc : s.shuttle.cycleMark = true) :
    faultExit s = paceTest (dock (modShuttle (fun h => { h with cycleMark := false, packet := none }) s)) := by
  rw [faultExit, if_pos hh, if_pos hc]

theorem faultExit_of_not_cycled (hh : s.shuttle.home = true) (hc : s.shuttle.cycleMark = false) : faultExit s = s := by
  rw [faultExit, if_pos hh, if_neg (by simp [hc])]

theorem faultExit_of_away (hh : s.shuttle.home = false) :
    faultExit s = modShuttle (fun h => { h with cycleMark := false }) s := by
  rw [faultExit, if_neg (by simp [hh])]

theorem startOutbound_of_target {t : Target} (h : s.shuttle.target = some t) :
    startOutbound s = modShuttle (fun h =>
      { h with
        state := .moving,
        move := some { leg := .outbound, origin := 0, dest := t.level,
                       timeout := some (after s.now (moveTicks s t.level + s.shuttleMargin)) },
        free := some (after s.now (tripTicks s t.level)) }) s := by
  rw [startOutbound, h]

/-- What a move and its following legs last, by whether it is a return. -/
theorem moveAndFollowing_eq (s : State) (m : Move) :
    moveAndFollowing s m = if m.leg = .return then legTicks s m.origin m.dest
      else legTicks s m.origin m.dest + s.tDrop + moveTicks s m.dest := by
  rw [moveAndFollowing]
  cases m.leg <;> rfl

/-- A TOWER closing up to the turn of the shuttle's state (R133). -/
def towerClosed (s : State) : State :=
  paceTest (modShuttle (fun h => { h with suspended := false })
    (notify (.cover .tower false) { s with pins := { s.pins with tower := false } }))

theorem towerClosed_shuttle (s : State) : (towerClosed s).shuttle = { s.shuttle with suspended := false } := by
  rw [towerClosed, paceTest_shuttle, modShuttle_shuttle, notify_shuttle]

theorem exec_towerClose_eq (hl : s.loading = false) : exec .towerClose s = .next (resumeShuttle (towerClosed s)) :=
  exec_towerClose hl

theorem resumeMove_of_reached (m : Move) (h : s.shuttle.reachedMark = true) : resumeMove m s = moveEnd m s := if_pos h

theorem resumeMove_of_stopped {m : Move} (h : s.shuttle.reachedMark = false) (ht : m.timeout = none) :
    resumeMove m s = restartMove m s := by
  rw [resumeMove, if_neg (by simp [h]), if_pos (by simp [ht])]

theorem resumeShuttle_of_docked (h : s.shuttle.state = .docked) : resumeShuttle s = arbitrate s := by
  rw [resumeShuttle, h]
theorem resumeShuttle_of_loading (h : s.shuttle.state = .loading) : resumeShuttle s = s := by
  rw [resumeShuttle, h]
theorem resumeShuttle_of_fault (h : s.shuttle.state = .fault) : resumeShuttle s = faultExit s := by
  rw [resumeShuttle, h]
theorem resumeShuttle_of_dropping (h : s.shuttle.state = .dropping) (hd : s.shuttle.dropEnd = none) :
    resumeShuttle s = modShuttle (fun h => { h with dropEnd := some (after s.now s.tDrop) }) s := by
  rw [resumeShuttle, h]; exact if_pos (by simp [hd])
theorem resumeShuttle_of_aboard (h : s.shuttle.state = .moving) (hm : s.shuttle.move = none) (hw : s.shuttle.waiting = false) :
    resumeShuttle s = startOutbound s := by
  rw [resumeShuttle, h]
  show resumeMoving s = _
  rw [resumeMoving, hm]; exact if_neg (by simp [hw])
theorem resumeShuttle_of_waiting (h : s.shuttle.state = .moving) (hm : s.shuttle.move = none) (hw : s.shuttle.waiting = true) :
    resumeShuttle s = retryWaiting s := by
  rw [resumeShuttle, h]
  show resumeMoving s = _
  rw [resumeMoving, hm]; exact if_pos hw
theorem resumeShuttle_of_move {m : Move} (h : s.shuttle.state = .moving ∨ s.shuttle.state = .returning)
    (hm : s.shuttle.move = some m) : resumeShuttle s = resumeMove m s := by
  rcases h with h | h <;> rw [resumeShuttle, h]
  · show resumeMoving s = _
    rw [resumeMoving, hm]
  · dsimp only
    rw [hm]

/-- Settles O50: by the suspension and the state, then by the home reading and the cycle mark. -/
theorem faultIsLeftByACoverCycleAtHome : Obligations.FaultIsLeftByACoverCycleAtHome := by
  refine fun s hl => ⟨fun m hs hf hm => exec_positionReached_of_suspended hl hm hf hs,
    fun hf => exec_positionReached_ignored hl (.inr hf), ⟨towerClosed s, rfl, fun hf => ?_⟩, fun hh hc => ?_,
    faultExit_of_not_cycled, faultExit_of_away, exec_shuttleHome hl⟩
  · rw [exec_towerClose_eq hl, resumeShuttle_of_fault (by rw [towerClosed_shuttle]; exact hf)]
  · rw [faultExit_of_cycled hh hc]; rfl

/-- Settles O51: the table of the opening is the one of `Shuttle.suspend`, the table of the closing that of `resumeShuttle`, read
at a state whose shuttle differs by the suspension alone. -/
theorem towerSuspendsTheShuttle : Obligations.TowerSuspendsTheShuttle := by
  refine ⟨fun m s => ⟨_, rfl, ?_⟩, fun m s hl hs hf hm => exec_positionReached_of_running hl hm hf hs,
    fun t s ht => startOutbound_of_target ht, fun s => ⟨retryWaiting_of_not_waiting, fun p u hm hw hs hp => ⟨fun h => ?_, ?_⟩⟩,
    fun s hl => ?_⟩
  · rw [restartMove, moveAndFollowing_eq]; rfl
  · exact retryWaiting_of_waiting hm hw hs hp h
  · rintro t est h rfl
    rw [retryWaiting_of_waiting hm hw hs hp h, Option.elim_some, startRetarget_of_select h, ← hm]; rfl
  · have e := towerClosed_shuttle s
    refine ⟨_, towerClosed s, rfl, rfl, exec_towerOpen hl, ?_⟩
    rw [exec_towerClose_eq hl]
    refine ⟨?_, fun h => ?_, fun h => ?_, fun h => ?_, fun h => ?_, fun h => ?_, fun h => ?_, fun h => ?_, fun h hm hw => ?_,
      fun h hm hw => ?_, fun h hd => ?_, fun m h hm hr => ?_, fun m h hm hr ht => ?_⟩
    · cases h : s.shuttle.state <;> simp [Shuttle.suspend, h]
    · simp [Shuttle.suspend, h]
    · rcases h with h | h <;> simp [Shuttle.suspend, h]
    · simp [Shuttle.suspend, h]
    · rcases h with h | h <;> simp [Shuttle.suspend, h]
    · rw [resumeShuttle_of_docked (by rw [e]; exact h)]
    · rw [resumeShuttle_of_loading (by rw [e]; exact h)]
    · rw [resumeShuttle_of_fault (by rw [e]; exact h)]
    · rw [resumeShuttle_of_aboard (by rw [e]; exact h) (by rw [e]; exact hm) (by rw [e]; exact hw)]
    · rw [resumeShuttle_of_waiting (by rw [e]; exact h) (by rw [e]; exact hm) (by rw [e]; exact hw)]
    · have hv : (towerClosed s).now = s.now ∧ (towerClosed s).tDrop = s.tDrop := by
        simp [towerClosed, State.tDrop, State.delivery]
      obtain ⟨hnow, hdrop⟩ := hv
      rw [resumeShuttle_of_dropping (by rw [e]; exact h) (by rw [e]; exact hd), hnow, hdrop]
    · rw [resumeShuttle_of_move (by rw [e]; exact h) (by rw [e]; exact hm), resumeMove_of_reached m (by rw [e]; exact hr)]
    · rw [resumeShuttle_of_move (by rw [e]; exact h) (by rw [e]; exact hm), resumeMove_of_stopped (by rw [e]; exact hr) ht]

end Sys2Proof.Machine
end

section
/-! PROOFS. Timing arithmetic (R48 to R60) and the transport's timers: the spin-up, the idle timer, the deadlines and the
release spacing (R52 to R55, R65, R66, R95), and the leaving test (R70, R151). -/

namespace Sys2Proof.Machine

variable {s : State}

/-! ## Ticks (R48) -/

theorem reached_iff (a b : Tick) : reached a b = true ↔ 0 ≤ (a - b).toInt := by
  simp [reached, BitVec.msb_eq_toInt]

theorem earlier_iff (a b : Tick) : earlier a b = true ↔ (a - b).toInt < 0 := by
  simp [earlier, BitVec.msb_eq_toInt]

theorem expired_of_reached {o : Option Tick} {now d : Tick} (ho : o = some d) (h : reached now d = true) :
    expired now o = true := by
  rw [ho]; exact h

/-! ## Rounding up (R50, R51, R60) -/

theorem ceilDiv_le_iff {a v n : Nat} (hv : 0 < v) : ceilDiv a v ≤ n ↔ a ≤ n * v := by
  rw [← Nat.lt_succ_iff, ceilDiv, Nat.div_lt_iff_lt_mul hv, Nat.succ_mul]
  omega

theorem lt_ceilDiv_iff {a v n : Nat} (hv : 0 < v) : n < ceilDiv a v ↔ n * v < a := by
  rw [← not_iff_not, Nat.not_lt, Nat.not_lt, ceilDiv_le_iff hv]

/-- The quotient rounded up covers the dividend, by less than one divisor. -/
theorem ceilDiv_bounds (a : Nat) {v : Nat} (hv : 0 < v) : a ≤ ceilDiv a v * v ∧ ceilDiv a v * v < a + v := by
  refine ⟨(ceilDiv_le_iff hv).1 (Nat.le_refl _), ?_⟩
  cases h : ceilDiv a v with
  | zero => omega
  | succ n =>
    have hn : n * v < a := (lt_ceilDiv_iff hv).1 (by omega)
    rw [Nat.succ_mul]
    omega

theorem gapOf_eq_iff (h : Nat) {g : Nat} (hp : 0 < s.pitch) (hg : 0 < g) (hl : g < 15) :
    gapOf s h = g ↔ (g + 2) * s.pitch < h ∧ h ≤ (g + 3) * s.pitch := by
  rw [← ceilDiv_le_iff hp, ← lt_ceilDiv_iff hp, gapOf]
  omega

/-- Settles O35: every rounding comes from the two bounds of `ceilDiv`. -/
theorem ticksTravelsAndGaps : Obligations.TicksTravelsAndGaps := by
  refine ⟨fun a b => ⟨reached_iff a b, earlier_iff a b, rfl, rfl⟩, fun l v hv => ceilDiv_bounds _ hv,
    fun s r x hv => ceilDiv_bounds _ hv, fun f a => ⟨Int.toNat_of_nonpos, Int.toNat_of_nonneg⟩,
    fun s h hp => ⟨Nat.min_le_left _ _, fun hh => ?_, fun hh => ?_, fun g hg hl h1 h2 => (gapOf_eq_iff h hp hg hl).2 ⟨h1, h2⟩⟩⟩
  · have := (ceilDiv_le_iff hp).2 hh
    rw [gapOf]; omega
  · have := (lt_ceilDiv_iff hp).2 hh
    rw [gapOf]; omega

/-! ## The head window and the idle timer (R35, R66) -/

theorem startWindow_of_empty (h : s.queue = []) : startWindow s = { s with window := none } := by
  rw [startWindow, h]

theorem idleTest_of_idle (ht : s.tracker.transport = .run) (hq : s.queue = []) (hp : s.tracker.path = []) :
    idleTest s = modTracker (fun t => { t with idle := some (after s.now s.tIdle) }) s :=
  if_pos (by simp [ht, hq, hp])

theorem exec_spinupEnd {d : Tick} (hs : s.tracker.spinup = some d) (hd : reached s.now d = true) :
    exec .spinupEnd s = .next (idleTest (startWindow (notify .ready
      { s with tracker := { s.tracker with transport := .run, spinup := none } }))) :=
  congrArg Host.Outcome.next (if_pos (expired_of_reached hs hd))

theorem exec_idleExpiry {d : Tick} (hs : s.tracker.idle = some d) (hd : reached s.now d = true) :
    exec .idleExpiry s = .next
      { s with
        tracker := { s.tracker with transport := .off, idle := none }, router := { s.router with spacing := none },
        guard := none } :=
  congrArg Host.Outcome.next (if_pos (expired_of_reached hs hd))

/-- Settles O27: with nothing queued and nothing in the path the idle timer runs from the spin-up's end. -/
theorem spinupAndIdleEnd : Obligations.SpinupAndIdleEnd := by
  refine ⟨fun d s hs hd => exec_spinupEnd hs hd, fun d s hs hd hq hp => ?_, fun d s hs hd => exec_idleExpiry hs hd⟩
  rw [exec_spinupEnd hs hd, startWindow_of_empty (by rw [notify_queue]; exact hq), idleTest_of_idle (by simp)
    (by rw [notify_queue]; exact hq) (by rw [notify_tracker]; exact hp)]
  simp only [modTracker, State.tIdle, State.pathTicks, State.path, notify_tracker, notify_now, notify_latched]

/-! ## Deadlines (R53, R55) -/

/-- Settles O34: each stage looks at the record's own deadline. -/
theorem deadlineStagesSlipAndJam : Obligations.DeadlineStagesSlipAndJam := by
  intro i r d s hr
  refine ⟨fun hd hs hn => ?_, fun hd hs => ?_, fun hd hn => ?_, fun hd hn => ?_⟩
  · show execSlipStage i s = _
    simp [execSlipStage, hr, hd, hs, hn]
  · show execSlipStage i s = _
    simp [execSlipStage, hr, hd, hs]
  · show execLateJamStage i s = _
    simp [execLateJamStage, hr, hd, hn, jamOfRecord]
  · show execClearDeadlineExpiry i s = _
    simp [execClearDeadlineExpiry, hr, hd, hn, jamOfRecord]

/-! ## The release test (R95, R96) -/

theorem findIdx_parked_eq_none_iff : s.tracker.path.findIdx? (·.parked) = none ↔ s.buffer = [] := by
  rw [List.findIdx?_eq_none_iff, State.buffer, List.filter_eq_nil_iff]
  simp

theorem releaseTest_of_no_buffer (h : s.buffer = []) : releaseTest s = s := by
  rw [releaseTest, findIdx_parked_eq_none_iff.2 h]

theorem releaseTest_of_spacing {d : Tick} (h : s.router.spacing = some d) : releaseTest s = s := by
  unfold releaseTest
  split
  next => rfl
  next => exact if_neg (by simp [h])

section
variable {i : Nat} {r : PathRec} (hi : s.tracker.path.findIdx? (·.parked) = some i) (hr : s.tracker.path[i]? = some r)
include hi hr

theorem releaseTest_of_not_ready (h : compilerReady s r = false) : releaseTest s = s := by
  rw [releaseTest, hi]
  exact if_neg (by simp [hr, h])

theorem releaseTest_of_ready (hn : s.router.spacing = none) (h : compilerReady s r = true) :
    releaseTest s =
      modRouter (fun q => { q with spacing := some (after s.now s.tRelease), gate := .pass }) (modRec i (releasedRec s) s) := by
  rw [releaseTest, hi]
  exact if_pos (by simp [hn, hr, h])

end

/-- Settles O38: the release test looks at the spacing timer and at the head of the buffer. -/
theorem spacingEndReleasesTheHead : Obligations.SpacingEndReleasesTheHead :=
  ⟨fun _ _ hs hd => congrArg Host.Outcome.next (if_pos (expired_of_reached hs hd)), fun _ => releaseTest_of_no_buffer,
    fun _ _ => releaseTest_of_spacing,
    fun _ _ _ hn hi hr => ⟨releaseTest_of_not_ready hi hr, releaseTest_of_ready hi hr hn⟩⟩

/-! ## The leaving test (R70, R151) -/

theorem uncovered_iff (p : PerSensor Bool) : uncovered p = true ↔ ∀ x : Sensor, p.get x = false := by
  refine ⟨fun h x => ?_, fun h => by simp [uncovered, h]⟩
  have hx : x ∈ allSensors := by cases x <;> decide
  simpa using List.all_eq_true.1 h x hx

theorem clearWaitEmpty_iff : clearWaitEmpty s = true ↔ ∀ x : CompilerId, (s.comp x).state = .clearWait → (s.comp x).paper = false := by
  have hor (c : Compiler) : (c.state != .clearWait || !c.paper) = true ↔ (c.state = .clearWait → c.paper = false) := by
    rw [Bool.or_eq_true, bne_iff_ne, Bool.not_eq_true', ← imp_iff_not_or]
  rw [clearWaitEmpty, Bool.and_eq_true, hor, hor]
  exact ⟨fun ⟨ha, hb⟩ x => match x with | .a => ha | .b => hb, fun h => ⟨h .a, h .b⟩⟩

/-- The three conditions of R70. -/
structure MayLeave (s : State) : Prop where
  causes : s.tracker.causes = {}
  sensors : ∀ x : Sensor, s.tracker.readings.get x = false
  cleared : ∀ x : CompilerId, (s.comp x).state = .clearWait → (s.comp x).paper = false

theorem mayLeave_iff :
    MayLeave s ↔ (s.tracker.causes.isEmpty && uncovered s.tracker.readings && clearWaitEmpty s) = true := by
  rw [Bool.and_eq_true, Bool.and_eq_true, uncovered_iff, clearWaitEmpty_iff]
  refine ⟨fun ⟨hc, hu, hw⟩ => ⟨⟨by rw [hc]; rfl, hu⟩, hw⟩, fun ⟨⟨hc, hu⟩, hw⟩ => ⟨causes_eq_of_isEmpty hc, hu, hw⟩⟩

theorem leaveTest_of_mayLeave (ht : s.tracker.transport = .halt) (h : MayLeave s) : leaveTest s = leaveHalt s := by
  refine if_pos ?_
  rw [ht, beq_self_eq_true, Bool.true_and]
  exact mayLeave_iff.1 h

theorem leaveTest_of_not_mayLeave (h : ¬ MayLeave s) : leaveTest s = s := by
  refine if_neg fun hc => h (mayLeave_iff.2 ?_)
  rw [Bool.and_assoc, Bool.and_assoc, Bool.and_eq_true] at hc
  rw [Bool.and_assoc]
  exact hc.2

theorem leaveHalt_of_entries {l : RecoveryList} (hl : s.recovery = some l) (he : l.entries ≠ []) :
    leaveHalt s = notify (.recoveryReady l.entries.length l.halt l.overflow)
      { s with tracker := { s.tracker with transport := .recover } } := by
  have hf : s.recovery.filter (fun l => !l.entries.isEmpty) = some l := by simp [hl, he]
  rw [leaveHalt, hf]; rfl

theorem leaveHalt_of_no_entries (h : ∀ l : RecoveryList, s.recovery = some l → l.entries = []) :
    leaveHalt s = { s with tracker := { s.tracker with transport := .off }, recovery := none } := by
  have hf : s.recovery.filter (fun l => !l.entries.isEmpty) = none :=
    Option.filter_eq_none_iff.2 fun l hl => by simp [h l hl]
  rw [leaveHalt, hf]; rfl

/-- Settles O33: with the three conditions the list decides between RECOVER and OFF. -/
theorem haltIsLeftWhenThreeThingsHold : Obligations.HaltIsLeftWhenThreeThingsHold := by
  refine fun s ht => ⟨fun l hc hu hw hl he => ?_, fun hc hu hw he => ?_, fun h => leaveTest_of_not_mayLeave fun hm => ?_⟩
  · rw [leaveTest_of_mayLeave ht ⟨hc, hu, hw⟩, leaveHalt_of_entries hl he]
  · rw [leaveTest_of_mayLeave ht ⟨hc, hu, hw⟩, leaveHalt_of_no_entries he]
  · rcases h with h | ⟨x, hx⟩ | ⟨x, hx, hp⟩
    · exact h hm.causes
    · simp [hm.sensors x] at hx
    · simp [hm.cleared x hx] at hp

end Sys2Proof.Machine
end

section
/-! PROOFS. The Router's choice of a compiler (R57 to R59), the overrun count (R90) and the pace test (R88). -/

namespace Sys2Proof.Machine

variable {s : State}

/-! ## The free estimate (R58) -/

section
variable {x : CompilerId}

theorem freeEstimate_of_empty (h : (s.comp x).state = .empty) : freeEstimate s x = s.now := by
  simp only [freeEstimate, h]

theorem freeEstimate_of_closing {p : CloseProgress} (h : (s.comp x).state = .closing) (hc : (s.comp x).close = some p) :
    freeEstimate s x = after (after (s.comp x).jogStart ((s.comp x).tJog + (s.comp x).tStaple * (p.planned + p.retries)))
      (s.comp x).tTransfer := by
  simp only [freeEstimate, h, closeEndEstimate, hc, Option.map_some, Option.getD_some]

theorem freeEstimate_of_ready (h : (s.comp x).state = .ready) :
    freeEstimate s x = after (laterOf s.now s.shuttleFree) (s.comp x).tTransfer := by
  simp only [freeEstimate, h]

theorem freeEstimate_of_transfer (h : (s.comp x).state = .transfer) :
    freeEstimate s x = after (s.comp x).transferStart (s.comp x).tTransfer := by
  simp only [freeEstimate, h]

theorem freeEstimate_of_gathering {k : SetKey} {q : SetRec} {r : Run} (h : (s.comp x).state = .gathering)
    (hc : (s.comp x).current = some k) (hq : s.getSet k = some q) (hr : s.getRun k.run = some r) :
    freeEstimate s x = after (eLast s x q)
      ((s.comp x).tSettle + (s.comp x).tJog + r.pattern.strokes * (s.comp x).tStaple + (s.comp x).tTransfer) := by
  have hs : s.runStrokes q.key.run = r.pattern.strokes := by
    rw [getSet_key hq, State.runStrokes, hr, Option.map_some, Option.getD_some]
  simp only [freeEstimate, h, hc, Option.bind_some, hq, hs]

theorem laterOf_self (a : Tick) : laterOf a a = a := by
  unfold laterOf; split <;> rfl

theorem laterOf_eq (a b : Tick) : laterOf a b = if (a - b).toInt < 0 then b else a := by
  simp only [laterOf, earlier_iff]

theorem shuttleFree_of_docked (h : s.shuttle.state = .docked) : s.shuttleFree = s.now := if_pos h

theorem shuttleFree_of_away {t : Tick} (h : s.shuttle.state ≠ .docked) (ht : s.shuttle.free = some t) : s.shuttleFree = t := by
  rw [State.shuttleFree, if_neg h, ht, Option.getD_some]

end

/-! ## The landing of the last page (R58) -/

theorem eLast_of_landed {x : CompilerId} {q : SetRec} (h : (s.comp x).count = q.pages) : eLast s x q = (s.comp x).lastLanding :=
  if_pos h

theorem eLast_of_coming {x : CompilerId} {q : SetRec} {c : PathRec} (h : (s.comp x).count ≠ q.pages)
    (hc : lastPageRec s x q = some c) : eLast s x q = landingEstimate s x c := by
  rw [eLast, if_neg h, hc]

theorem lastPageRec_route {x : CompilerId} {q : SetRec} {c : PathRec} (h : lastPageRec s x q = some c) : c.route = .to x := by
  have hp := List.find?_some h
  simp only [Bool.and_eq_true, beq_iff_eq] at hp
  exact hp.1.2

theorem landingEstimate_of_lead {x : CompilerId} {c : PathRec} {t : Tick} (h : c.lead.get (s5Of x) = some t) :
    landingEstimate s x c = after t (passage s c (s5Of x)) := by
  rw [landingEstimate, h]

theorem sensors_nodup (r : Route) : r.sensors.Nodup := by
  rcases r with _ | _ | x
  · decide
  · decide
  · cases x <;> decide

/-- The last lead seen on a route, named by the part of the route that is still ahead. -/
theorem lastLead_of_split {c : PathRec} {y : Sensor} {t : Tick} {before rest : List Sensor}
    (hs : c.route.sensors = before ++ y :: rest) (hy : c.lead.get y = some t) (hn : ∀ z ∈ rest, c.lead.get z = none) :
    c.lastLead = some (y, t) := by
  have hrest : rest.reverse.findSome? (fun x => (c.lead.get x).map (fun t => (x, t))) = none :=
    List.findSome?_eq_none_iff.2 fun z hz => by rw [hn z (List.mem_reverse.1 hz)]; rfl
  rw [PathRec.lastLead, hs, List.reverse_append, List.reverse_cons, List.append_assoc, List.findSome?_append, hrest]
  simp [hy]

theorem remainingTravel_of_split {r : Route} {y : Sensor} {before rest : List Sensor} (hs : r.sensors = before ++ y :: rest) :
    remainingTravel s r y = (rest.map (fun z => s.travel (zoneTo z))).sum := by
  have hnd := sensors_nodup r
  rw [hs] at hnd
  have hb : ∀ z ∈ before, (z != y) = true := by
    intro z hz
    rw [bne_iff_ne]
    rintro rfl
    exact (List.nodup_append.1 hnd).2.2 z hz z List.mem_cons_self rfl
  rw [remainingTravel, hs, List.dropWhile_append_of_pos hb, List.dropWhile_cons_of_neg (by simp)]
  rfl

/-- The S5 sensor ends its compiler's route. -/
theorem s5Of_mem_rest {x : CompilerId} {y : Sensor} {before rest : List Sensor}
    (hs : (Route.to x).sensors = before ++ y :: rest) (hr : rest ≠ []) : s5Of x ∈ rest := by
  have hlast : (Route.to x).sensors.getLast? = some (s5Of x) := by cases x <;> rfl
  rw [hs, List.getLast?_append, List.getLast?_cons_of_ne_nil hr] at hlast
  cases hg : rest.getLast? with
  | none => exact absurd (List.getLast?_eq_none_iff.1 hg) hr
  | some z =>
    rw [hg, Option.some_or] at hlast
    cases hlast
    exact List.mem_of_getLast? hg

theorem landingEstimate_of_split {x : CompilerId} {c : PathRec} {y : Sensor} {t : Tick} {before rest : List Sensor}
    (hr : c.route = .to x) (hs : c.route.sensors = before ++ y :: rest) (hy : c.lead.get y = some t)
    (hn : ∀ z ∈ rest, c.lead.get z = none) (hne : rest ≠ []) :
    landingEstimate s x c =
      after (after t ((rest.map (fun z => s.travel (zoneTo z))).sum)) (passage s c (s5Of x)) := by
  have h5 : c.lead.get (s5Of x) = none := hn _ (s5Of_mem_rest (hr ▸ hs) hne)
  simp only [landingEstimate, h5, lastLead_of_split hs hy hn, remainingTravel_of_split hs]

/-! ## The choice (R59) and the overrun count (R90) -/

theorem earlier_self (a : Tick) : earlier a a = false := by
  rw [earlier, BitVec.sub_self]; rfl

theorem earlier_eq_false_iff (a b : Tick) : earlier a b = false ↔ 0 ≤ (a - b).toInt := by
  rw [← Bool.not_eq_true, earlier_iff, not_lt]

section
variable {r : Run}

theorem chooseCompiler_of_both (ha : canTake s r .a = true) (hb : canTake s r .b = true) :
    chooseCompiler s r = some (if earlier (freeEstimate s .a) (freeEstimate s .b) then .a
      else if earlier (freeEstimate s .b) (freeEstimate s .a) then .b else otherCompiler s.router.lastTaker) := by
  simp only [chooseCompiler, ha, hb]

end

theorem PathRec.betweenS2S4_eq (r : PathRec) :
    r.betweenS2S4 = (r.route.isCompiler && r.lead.s2.isSome && r.lead.s4.isNone) := by
  rw [PathRec.betweenS2S4]
  cases r.route <;> rfl

/-- Leaving out one place of a list is counting at the other places. -/
theorem countP_eraseIdx {α : Type} (p : α → Bool) (l : List α) (i : Nat) :
    (l.eraseIdx i).countP p = (List.range l.length).countP (fun j => j != i && (l[j]?).any p) := by
  induction l generalizing i with
  | nil => rfl
  | cons a l ih =>
    have hstep (q : Nat → Bool) : (List.range (l.length + 1)).countP q =
        (if q 0 then 1 else 0) + (List.range l.length).countP (fun j => q (j + 1)) := by
      rw [List.range_succ_eq_map, List.countP_cons, List.countP_map, Nat.add_comm]; rfl
    rw [List.length_cons, hstep]
    cases i with
    | zero =>
      have hall : l.countP p = (List.range l.length).countP (fun j => (l[j]?).any p) := by
        have := ih l.length
        rw [List.eraseIdx_of_length_le (Nat.le_refl _)] at this
        rw [this]
        refine List.countP_congr fun j hj => ?_
        have hne : (j != l.length) = true := bne_iff_ne.2 (Nat.ne_of_lt (List.mem_range.1 hj))
        rw [hne, Bool.true_and]
      simp [hall]
    | succ i =>
      rw [List.eraseIdx_cons_succ, List.countP_cons, ih, Nat.add_comm]
      simp

/-! ## Availability (R57) -/

theorem SetRec.unbroken_iff (q : SetRec) :
    q.unbroken = true ↔ q.aborted = false ∧ q.state ≠ .diverting ∧ q.state ≠ .recovering := by
  simp [SetRec.unbroken, and_assoc]

theorem lastPageComing_iff {x : CompilerId} {q : SetRec} :
    lastPageComing s x q = true ↔ q.aborted = false ∧ q.state ≠ .diverting ∧ q.state ≠ .recovering ∧
      ((s.comp x).count = q.pages ∨ ∃ c : PathRec, c.parked = false ∧ lastPageRec s x q = some c) := by
  have hany : (lastPageRec s x q).any (fun r => !r.parked) = true ↔ ∃ c : PathRec, c.parked = false ∧ lastPageRec s x q = some c := by
    rw [Option.any_eq_true]
    exact ⟨fun ⟨c, hc, hp⟩ => ⟨c, by simpa using hp, hc⟩, fun ⟨c, hp, hc⟩ => ⟨c, hc, by simpa using hp⟩⟩
  rw [lastPageComing, Bool.and_eq_true, SetRec.unbroken_iff, Bool.or_eq_true, beq_iff_eq, hany, and_assoc, and_assoc]

theorem gathering_available_iff {x : CompilerId} :
    ((s.comp x).current.bind s.getSet).any (lastPageComing s x) = true ↔
      ∃ (k : SetKey) (q : SetRec), (s.comp x).current = some k ∧ s.getSet k = some q ∧ lastPageComing s x q = true := by
  rw [Option.any_eq_true]
  refine ⟨fun ⟨q, hq, hc⟩ => ?_, fun ⟨k, q, hk, hq, hc⟩ => ⟨q, Option.bind_eq_some_iff.2 ⟨k, hk, hq⟩, hc⟩⟩
  obtain ⟨k, hk, hq⟩ := Option.bind_eq_some_iff.1 hq
  exact ⟨k, q, hk, hq, hc⟩

theorem available_iff {x : CompilerId} :
    available s x = true ↔ (s.comp x).outPending = false ∧ (s.comp x).reserved = none ∧
      ((s.comp x).state = .empty ∨ (s.comp x).state = .closing ∨ (s.comp x).state = .transfer ∨
        ((s.comp x).state = .ready ∧ (s.comp x).undeliverable = false ∧ s.shuttle.state ≠ .fault ∧
          s.shuttle.suspended = false) ∨
        ((s.comp x).state = .gathering ∧ ((s.comp x).current.bind s.getSet).any (lastPageComing s x) = true)) := by
  cases h : (s.comp x).state <;> simp [available, h, and_assoc]

theorem canStaple_iff {c : Compiler} {r : Run} :
    canStaple c r = true ↔ r.requireStaple = false ∨ r.pattern = .none ∨ (c.fault = false ∧ r.pattern.strokes ≤ c.staples) := by
  have hp : r.pattern.strokes = 0 ↔ r.pattern = .none := by cases r.pattern <;> decide
  simp [canStaple, hp, or_assoc]

/-! ## The pace test (R88) -/

theorem paceConditions_noTarget_iff :
    (paceConditions s).noTarget = true ↔ ∀ x : CompilerId, (s.comp x).state = .ready ∧ (s.comp x).undeliverable = true := by
  have h : (paceConditions s).noTarget = true ↔ ((s.compA.state = .ready ∧ s.compB.state = .ready) ∧ s.compA.undeliverable = true) ∧
      s.compB.undeliverable = true := by
    simp only [paceConditions, Bool.and_eq_true, beq_iff_eq]
  rw [h]
  exact ⟨fun ⟨⟨⟨ha, hb⟩, ua⟩, ub⟩ x => match x with | .a => ⟨ha, ua⟩ | .b => ⟨hb, ub⟩,
    fun h => ⟨⟨⟨(h .a).1, (h .b).1⟩, (h .a).2⟩, (h .b).2⟩⟩

theorem paceConditions_eq {c : PaceConditions}
    (hc : c.noCompiler = true ↔ available s .a = false ∧ available s .b = false)
    (hp : c.purgeFull = true ↔ s.purgeCapacity ≤ s.tracker.purgeCount)
    (ht : c.noTarget = true ↔ ∀ x : CompilerId, (s.comp x).state = .ready ∧ (s.comp x).undeliverable = true) :
    paceConditions s = c := by
  have hn : (paceConditions s).noCompiler = c.noCompiler := by
    rw [Bool.eq_iff_iff, hc, paceConditions, Bool.and_eq_true, Bool.not_eq_true', Bool.not_eq_true']
  have hf : (paceConditions s).purgeFull = c.purgeFull := Bool.eq_iff_iff.2 (decide_eq_true_iff.trans hp.symm)
  have hg : (paceConditions s).noTarget = c.noTarget := Bool.eq_iff_iff.2 (paceConditions_noTarget_iff.trans ht.symm)
  exact congr (congr (congrArg PaceConditions.mk hn) hf) hg

theorem PaceConditions.any_iff (c : PaceConditions) :
    c.any = true ↔ c.noCompiler = true ∨ c.purgeFull = true ∨ c.noTarget = true := by
  rw [PaceConditions.any, Bool.or_eq_true, Bool.or_eq_true, or_assoc]

theorem paceTest_of_hold (hh : s.router.held = false) (hc : (paceConditions s).any = true) :
    paceTest s = notify (.paceHold (paceConditions s)) { s with router := { s.router with held := true } } :=
  if_pos (by simp [hh, hc])

theorem paceTest_of_release (hh : s.router.held = true) (hc : (paceConditions s).any = false) :
    paceTest s = notify .paceRelease { s with router := { s.router with held := false } } := by
  rw [paceTest, if_neg (by simp [hc]), if_pos (by simp [hh, hc])]; rfl

theorem paceTest_of_same (h : s.router.held = (paceConditions s).any) : paceTest s = s := by
  rw [paceTest, if_neg (by simp [h]), if_neg (by simp [h])]

/-- Settles O36: F by the compiler's state, the choice by the order of the two estimates, the pace test by the conditions and the
mark as it stood. -/
theorem routerChoosesTheEarlierCompiler : Obligations.RouterChoosesTheEarlierCompiler := by
  refine ⟨fun s x => ⟨freeEstimate_of_empty, fun p => freeEstimate_of_closing, fun h hd => ?_, fun t h hd ht => ?_,
    freeEstimate_of_transfer, fun k q r h hc hq hr => ⟨_, freeEstimate_of_gathering h hc hq hr, eLast_of_landed,
      fun c hne hc => ⟨fun t ht => ?_, fun y t before rest hs hy hn hr => ?_⟩⟩⟩, fun s r => ?_, fun s i => ?_,
    fun s x r => ⟨?_, ?_⟩, fun c s hc hp ht => ?_⟩
  · rw [freeEstimate_of_ready h, shuttleFree_of_docked hd, laterOf_self]
  · rw [freeEstimate_of_ready h, shuttleFree_of_away hd ht, laterOf_eq]
  · rw [eLast_of_coming hne hc, landingEstimate_of_lead ht]
  · rw [eLast_of_coming hne hc, landingEstimate_of_split (lastPageRec_route hc) hs hy hn hr]
  · refine ⟨fun ha hb => by simp [chooseCompiler, ha, hb], fun ha hb => by simp [chooseCompiler, ha, hb],
      fun ha hb => by simp [chooseCompiler, ha, hb], fun ha hb h => ?_, fun ha hb h h' => ?_, fun ha hb h => ?_⟩
    · rw [chooseCompiler_of_both ha hb, if_pos ((earlier_iff _ _).2 h)]
    · rw [chooseCompiler_of_both ha hb, (earlier_eq_false_iff _ _).2 h', (earlier_iff _ _).2 h]; rfl
    · rw [chooseCompiler_of_both ha hb, h, earlier_self]; rfl
  · rw [overrunCount, countP_eraseIdx, funext PathRec.betweenS2S4_eq]
  · rw [available_iff]
    simp only [gathering_available_iff, lastPageComing_iff]
    rfl
  · rw [canTake, Bool.and_eq_true, canStaple_iff]
  · obtain rfl := paceConditions_eq hc hp ht
    rw [← PaceConditions.any_iff]
    refine ⟨paceTest_of_hold, fun hh h1 h2 h3 => paceTest_of_release hh ?_, fun h => paceTest_of_same (Bool.eq_iff_iff.2 h)⟩
    rw [← Bool.not_eq_true, PaceConditions.any_iff]
    simp [h1, h2, h3]

end Sys2Proof.Machine
end

section
/-! PROOFS. The compilers (06): the close's start (R102), promotion and the end of a transfer (R99, R107, R108), Compiler Service
(R117, R118), and what the FRONT and TOP covers change (R69, R112, R113, R115). -/

namespace Sys2Proof.Machine

variable {s : State} {x : CompilerId}

/-! ## Updates of one compiler -/

theorem modComp_modComp (x : CompilerId) (f g : Compiler → Compiler) (s : State) :
    modComp x f (modComp x g s) = modComp x (fun c => f (g c)) s := by cases x <;> rfl

theorem modSet_modComp (k : SetKey) (h : SetRec → SetRec) (x : CompilerId) (f : Compiler → Compiler) (s : State) :
    modSet k h (modComp x f s) = modComp x f (modSet k h s) := by cases x <;> rfl

@[simp] theorem modSet_comp (k : SetKey) (h : SetRec → SetRec) (s : State) (x : CompilerId) :
    (modSet k h s).comp x = s.comp x := by cases x <;> rfl

@[simp] theorem modRun_comp (r : Fin 16) (f : Run → Run) (s : State) (x : CompilerId) :
    (modRun r f s).comp x = s.comp x := by cases x <;> rfl

/-! ## The close's start (R102) -/

theorem execSettleEnd_of_current {q : SetRec} {r : Run} {k : SetKey} {d : Tick} (hs : (s.comp x).settle = some d)
    (hd : reached s.now d = true) (hc : (s.comp x).current = some k) (hq : s.getSet k = some q)
    (hr : s.getRun q.key.run = some r) : execSettleEnd x s = .next (closeStart x q r s) := by
  rw [execSettleEnd, if_pos (expired_of_reached hs hd), hc, Option.bind_some, hq]
  dsimp only
  rw [hr]

theorem tooThick_iff (c : Compiler) (r : Run) : tooThick c r = true ↔ r.pattern ≠ .none ∧ c.stapleLimit < c.thickness := by
  simp [tooThick]

theorem newPacket_side_of_alternate (s : State) (c : Compiler) (q : SetRec) {r : Run} (h : r.offset = .alternate) :
    (newPacket s c q r).side = r.nextSide := by
  simp only [newPacket, h]

theorem newPacket_side_of_none (s : State) (c : Compiler) (q : SetRec) {r : Run} (h : r.offset = .none) :
    (newPacket s c q r).side = .none := by
  simp only [newPacket, h]

theorem closeStart_eq (x : CompilerId) (q : SetRec) (r : Run) (s : State) :
    closeStart x q r s = paceTest (modComp x (fun c =>
      { c with
        state := .closing, settle := none, packet := some (newPacket s (s.comp x) q r), jogStart := s.now,
        close := some
          { planned := plannedStrokes (newPacket s (s.comp x) q r) r,
            made := 0, retry := false, retries := 0, jogEnd := some (after s.now (s.comp x).tJog), report := none,
            noMore := false } })
      (modRun q.key.run Run.flipSide (modSet q.key (fun q => { q with state := .packing })
        { s with nextSeq := s.nextSeq + 1 }))) := by
  refine congrArg paceTest (modComp_congr ?_)
  rw [modRun_comp, modSet_comp]
  rfl

/-- Settles O39: the packet is `newPacket`, and the close starts as `closeStart` says. -/
theorem settleEndStartsTheClose : Obligations.SettleEndStartsTheClose := by
  refine ⟨fun x q r k d s hs hd hc hq hr => ⟨newPacket s (s.comp x) q r, rfl, rfl, rfl, rfl, rfl,
    newPacket_side_of_alternate s _ q, newPacket_side_of_none s _ q, tooThick_iff _ _, decide_eq_true_iff, rfl, ?_⟩,
    rfl, rfl, rfl, by decide⟩
  exact (execSettleEnd_of_current hs hd hc hq hr).trans (congrArg _ (closeStart_eq x q r s))

/-! ## A compiler that loses its stack (R99, R117, R119) -/

theorem compileLatch_eq (x : CompilerId) (s : State) :
    compileLatch x s = supplyTests x (s.comp x).staples (s.comp x).threshold (modComp x (fun c =>
      { c with latched := s.staged.compile, staples := min c.staples (s.staged.compile.getD 5 0) }) s) := rfl

theorem becomeEmpty_of_outPending (h : (s.comp x).outPending = true) :
    becomeEmpty x s = modComp x (fun c => { c with state := .out, outPending := false }) s := if_pos h

theorem compileLatch_emptied (x : CompilerId) (s : State) :
    compileLatch x (modComp x (fun c => { c with state := .empty }) s) =
      supplyTests x (s.comp x).staples (s.comp x).threshold (modComp x (fun c =>
        { c with
          state := .empty, latched := s.staged.compile, staples := min c.staples (s.staged.compile.getD 5 0) }) s) := by
  rw [compileLatch_eq, modComp_modComp, modComp_comp]
  cases x <;> rfl

theorem becomeEmpty_of_not_outPending (h : (s.comp x).outPending = false) :
    becomeEmpty x s = supplyTests x (s.comp x).staples (s.comp x).threshold (modComp x (fun c =>
      { c with
        state := .empty, latched := s.staged.compile, staples := min c.staples (s.staged.compile.getD 5 0) }) s) := by
  rw [becomeEmpty, if_neg (by simp [h]), compileLatch_emptied]

/-- Compiler X with its current set and its stack gone. -/
def vacated (x : CompilerId) (s : State) : State :=
  modComp x (fun c => { c with current := none, settle := none, count := 0, thickness := 0, tags := [] }) s

/-- The reserved set `k` of compiler X becomes its current set. -/
def promoted (x : CompilerId) (k : SetKey) (s : State) : State :=
  modSet k (fun q => { q with assigned := some (x, .current) })
    (modComp x (fun c => { c with state := .gathering, current := some k, reserved := none }) s)

theorem promoteOrEmpty_of_reserved {k : SetKey} (h : (s.comp x).reserved = some k) :
    promoteOrEmpty x s = closeTest x (promoted x k (vacated x s)) := by
  have hv : ((vacated x s).comp x).reserved = some k := by rw [vacated, modComp_comp]; exact h
  show (match ((vacated x s).comp x).reserved with
    | some k => closeTest x (promoted x k (vacated x s))
    | none => becomeEmpty x (vacated x s)) = _
  rw [hv]

theorem promoteOrEmpty_of_none (h : (s.comp x).reserved = none) : promoteOrEmpty x s = becomeEmpty x (vacated x s) := by
  have hv : ((vacated x s).comp x).reserved = none := by rw [vacated, modComp_comp]; exact h
  show (match ((vacated x s).comp x).reserved with
    | some k => closeTest x (promoted x k (vacated x s))
    | none => becomeEmpty x (vacated x s)) = _
  rw [hv]

theorem promoteOrEmpty_of_outPending (h : (s.comp x).reserved = none) (ho : (s.comp x).outPending = true) :
    promoteOrEmpty x s = modComp x (fun c => { c with state := .out, outPending := false }) (vacated x s) := by
  rw [promoteOrEmpty_of_none h, becomeEmpty_of_outPending (by rw [vacated, modComp_comp]; exact ho)]

theorem promoteOrEmpty_of_empty (h : (s.comp x).reserved = none) (ho : (s.comp x).outPending = false) :
    promoteOrEmpty x s = supplyTests x (s.comp x).staples (s.comp x).threshold (modComp x (fun c =>
      { c with
        state := .empty, latched := s.staged.compile, staples := min c.staples (s.staged.compile.getD 5 0) })
      (vacated x s)) := by
  rw [promoteOrEmpty_of_none h, becomeEmpty_of_not_outPending (by rw [vacated, modComp_comp]; exact ho)]
  cases x <;> rfl

/-! ## The close condition test (R101) -/

theorem closeTest_of_not_due (h : ((s.comp x).current.bind s.getSet).any (closeDue s x) = false) : closeTest x s = s :=
  if_neg (by simp [h])

theorem closeTest_of_wrong_state
    (h : (s.comp x).state ≠ .gathering ∨ (s.comp x).settle ≠ none ∨ s.pins.front = true ∨ (s.comp x).current = none) :
    closeTest x s = s := by
  refine if_neg ?_
  simp only [Bool.and_eq_true, beq_iff_eq, Option.isNone_iff_eq_none, Bool.not_eq_true']
  rintro ⟨⟨⟨hs, ht⟩, hf⟩, hd⟩
  rcases h with h | h | h | h
  · exact h hs
  · exact h ht
  · simp [h] at hf
  · simp [h] at hd

theorem closeTest_of_due (hs : (s.comp x).state = .gathering) (ht : (s.comp x).settle = none) (hf : s.pins.front = false)
    (hd : ((s.comp x).current.bind s.getSet).any (closeDue s x) = true) :
    closeTest x s = modComp x (fun c => { c with settle := some (after s.now c.tSettle) }) s := by
  refine if_pos ?_
  rw [hd]
  simp [hs, ht, hf]

/-- An empty stack of a set with pages is not complete. -/
theorem closeDue_of_empty {q : SetRec} (hc : (s.comp x).count = 0) (hp : q.pages ≠ 0) : closeDue s x q = false := by
  simp [closeDue, hc, hp.symm]

/-- A promoted set is complete at once only when it has no pages. -/
theorem closeTest_promoted {k : SetKey} {q : SetRec} (hq : (promoted x k (vacated x s)).getSet k = some q) (hp : q.pages ≠ 0) :
    closeTest x (promoted x k (vacated x s)) = promoted x k (vacated x s) := by
  refine closeTest_of_not_due ?_
  have hcur : ((promoted x k (vacated x s)).comp x).current = some k := by rw [promoted, modSet_comp, modComp_comp]
  have hcount : ((promoted x k (vacated x s)).comp x).count = 0 := by
    rw [promoted, modSet_comp, modComp_comp, vacated, modComp_comp]
  rw [hcur, Option.bind_some, hq, Option.any_some, closeDue_of_empty hcount hp]

/-! ## The end of a transfer (R107, R108) -/

/-- A packet coming on board changes the shuttle alone. -/
theorem packetAboard_eq (p : Packet) (blocked : Bool) (s : State) :
    packetAboard p blocked s = { s with shuttle := (packetAboard p blocked s).shuttle } := by
  unfold packetAboard startOutbound
  dsimp only
  repeat' split
  all_goals rfl

/-- The shuttle as a packet comes on board, before its move. -/
def Shuttle.loaded (h : Shuttle) (p : Packet) (blocked : Bool) : Shuttle :=
  { h with
    state := .moving, packet := some p, blockedSent := blocked, granted := none, move := none, waiting := false,
    reachedMark := false }

theorem packetAboard_if (p : Packet) (blocked : Bool) (s : State) :
    packetAboard p blocked s = if s.shuttle.suspended = true then { s with shuttle := s.shuttle.loaded p blocked }
      else startOutbound { s with shuttle := s.shuttle.loaded p blocked } := rfl

theorem packetAboard_of_suspended (p : Packet) (blocked : Bool) (h : s.shuttle.suspended = true) :
    (packetAboard p blocked s).shuttle = s.shuttle.loaded p blocked := by
  rw [packetAboard_if, if_pos h]

theorem packetAboard_of_target (p : Packet) (blocked : Bool) {t : Target} (h : s.shuttle.suspended = false)
    (ht : s.shuttle.target = some t) :
    (packetAboard p blocked s).shuttle = { s.shuttle.loaded p blocked with
      move := some { leg := .outbound, origin := 0, dest := t.level,
                     timeout := some (after s.now (moveTicks s t.level + s.shuttleMargin)) },
      free := some (after s.now (tripTicks s t.level)) } := by
  rw [packetAboard_if, if_neg (by simp [h]),
    startOutbound_of_target (s := { s with shuttle := s.shuttle.loaded p blocked }) ht]
  rfl

/-- The state of a transfer's end whose compiler has given its packet away, before the promotion. -/
def handedOver (x : CompilerId) (k : SetKey) (s : State) : State :=
  modSet k (fun q => { q with assigned := none })
    (modComp x (fun c => { c with packet := none, transfer := none, undeliverable := false, blockedSent := false }) s)

theorem transferEnd_eq {p : Packet} {k : SetKey} (hp : (s.comp x).packet = some p) (hk : (s.comp x).current = some k) :
    transferEnd x s = paceTest (releaseTest (promoteOrEmpty x
      (handedOver x k (packetAboard p (s.comp x).blockedSent s)))) := by
  simp only [transferEnd, hp, hk]
  rfl

theorem vacated_handedOver (x : CompilerId) (k : SetKey) (s : State) :
    vacated x (handedOver x k s) = modSet k (fun q => { q with assigned := none }) (modComp x (fun c =>
      { c with
        packet := none, transfer := none, undeliverable := false, blockedSent := false, current := none, settle := none,
        count := 0, thickness := 0, tags := [] }) s) := by
  cases x <;> rfl

theorem exec_transferTimerExpiry_of_not_due (h : (s.comp x).state ≠ .transfer ∨ expired s.now (s.comp x).transfer = false) :
    exec (.transferTimerExpiry x) s = .next s := by
  refine congrArg Host.Outcome.next (if_neg ?_)
  rintro ⟨hs, he⟩
  simp [hs, he] at h

theorem exec_transferTimerExpiry {d : Tick} (hs : (s.comp x).state = .transfer) (ht : (s.comp x).transfer = some d)
    (hd : reached s.now d = true) : exec (.transferTimerExpiry x) s = .next (transferEnd x s) :=
  congrArg Host.Outcome.next (if_pos ⟨hs, expired_of_reached ht hd⟩)

theorem endRunningTransfer_of_idle (h : (s.comp x).state ≠ .transfer ∨ (s.comp x).transfer = none) :
    endRunningTransfer x s = s := by
  refine if_neg ?_
  rintro ⟨hs, ht⟩
  rcases h with h | h
  · exact h hs
  · simp [h] at ht

theorem endRunningTransfer_of_running {d : Tick} (hs : (s.comp x).state = .transfer) (ht : (s.comp x).transfer = some d) :
    endRunningTransfer x s = transferEnd x s := if_pos ⟨hs, by rw [ht]; rfl⟩

/-- Settles O42: a transfer that runs is ended by the reading or by its timer, and what follows is said by the reserved set
and the OUT mark of the compiler. -/
theorem transferEndsWithThePacketAboard : Obligations.TransferEndsWithThePacketAboard := by
  refine ⟨fun x s hl h => ?_, fun x s h => exec_transferTimerExpiry_of_not_due h, fun x d s hs ht => ⟨fun hl => ?_,
    exec_transferTimerExpiry hs ht⟩, fun x p k s hp hk => ?_⟩
  · rw [exec_compilerPaperAbsent hl, endRunningTransfer_of_idle (by rw [modComp_comp, modPins_comp]; exact h)]
    rfl
  · rw [exec_compilerPaperAbsent hl, endRunningTransfer_of_running (by rw [modComp_comp, modPins_comp]; exact hs)
      (by rw [modComp_comp, modPins_comp]; exact ht)]
    rfl
  · have hcomp (c : CompilerId) : (packetAboard p (s.comp x).blockedSent s).comp c = s.comp c := by
      rw [packetAboard_eq]; cases c <;> rfl
    have hover : (handedOver x k (packetAboard p (s.comp x).blockedSent s)).comp x =
        { s.comp x with packet := none, transfer := none, undeliverable := false, blockedSent := false } := by
      rw [handedOver, modSet_comp, modComp_comp, hcomp]
    have hstaged : (handedOver x k (packetAboard p (s.comp x).blockedSent s)).staged = s.staged := by
      rw [packetAboard_eq]; cases x <;> rfl
    refine ⟨(packetAboard p (s.comp x).blockedSent s).shuttle, _, vacated x (handedOver x k (packetAboard p (s.comp x).blockedSent s)),
      transferEnd_eq hp hk, packetAboard_of_suspended p _, fun t => packetAboard_of_target p _, ?_, ?_, ?_, ?_⟩
    · rw [vacated_handedOver, ← packetAboard_eq]
    · rintro y u hy rfl
      have e := promoteOrEmpty_of_reserved (x := x) (k := y) (by rw [hover]; exact hy)
      exact ⟨e, fun q hq hne => e.trans (closeTest_promoted hq hne)⟩
    · intro hn ho
      exact promoteOrEmpty_of_outPending (by rw [hover]; exact hn) (by rw [hover]; exact ho)
    · intro hn ho
      rw [promoteOrEmpty_of_empty (by rw [hover]; exact hn) (by rw [hover]; exact ho), hover, hstaged]
      rfl

/-! ## Compiler Service (R117, R118) -/

theorem compilerOut_of_empty (h : (s.comp x).state = .empty) :
    compilerOut x s = paceTest (modComp x (fun c => { c with state := .out }) s) := by
  rw [compilerOut, h]
theorem compilerOut_of_out (h : (s.comp x).state = .out) : compilerOut x s = s := by
  rw [compilerOut, h]
theorem compilerOut_of_busy (he : (s.comp x).state ≠ .empty) (ho : (s.comp x).state ≠ .out) :
    compilerOut x s = modComp x (fun c => { c with outPending := true }) s := by
  cases h : (s.comp x).state <;> simp_all [compilerOut]

theorem compilerIn_of_clear (h : (s.comp x).state = .out) (hp : (s.comp x).paper = false) :
    compilerIn x s = paceTest (compileLatch x (modComp x (fun c => { c with state := .empty }) s)) := by
  rw [compilerIn, h]
  exact congrArg paceTest (if_neg (by simp [hp]))
theorem compilerIn_of_paper (h : (s.comp x).state = .out) (hp : (s.comp x).paper = true) :
    compilerIn x s = paceTest (modComp x (fun c => { c with state := .clearWait, cycleMark := s.pins.front }) s) := by
  rw [compilerIn, h]
  exact congrArg paceTest (if_pos hp)
theorem compilerIn_of_working (h : (s.comp x).state ≠ .out) :
    compilerIn x s = modComp x (fun c => { c with outPending := false }) s := by
  cases hs : (s.comp x).state <;> simp_all [compilerIn]

theorem compilerOf_eq_none {v : Nat} (ha : v ≠ 1) (hb : v ≠ 2) : compilerOf v = none := by
  unfold compilerOf
  split
  next => exact absurd rfl ha
  next => exact absurd rfl hb
  next => rfl

theorem actionOf_eq_none {v : Nat} (ho : v ≠ 0) (hi : v ≠ 1) : actionOf v = none := by
  unfold actionOf
  split
  next => exact absurd rfl ho
  next => exact absurd rfl hi
  next => rfl

theorem ownCompilerService_of_bad {a b : Byte} (h : (a ≠ 1 ∧ a ≠ 2) ∨ (b ≠ 0 ∧ b ≠ 1)) (s : State) :
    ownCompilerService [a, b] s = (s, refusal .badField [0, 0]) := by
  show (match compilerOf a.toNat, actionOf b.toNat with
    | some x, some a => _
    | _, _ => (s, refusal .badField (zeros 2))) = _
  rcases h with ⟨h1, h2⟩ | ⟨h0, h1⟩
  · rw [compilerOf_eq_none (toNat_ne h1) (toNat_ne h2)]; rfl
  · rw [actionOf_eq_none (toNat_ne h0) (toNat_ne h1)]
    cases compilerOf a.toNat <;> rfl

/-- Compiler X after an accepted service. -/
def serviced (x : CompilerId) (s : State) : ServiceAction → State
  | .out => compilerOut x s
  | .in_ => compilerIn x s

/-- A Compiler Service reply shows the state and the mark. -/
theorem ownCompilerService_of_action (x : CompilerId) {b : Byte} {a : ServiceAction} (hb : actionOf b.toNat = some a) (s : State) :
    ownCompilerService [byte (compilerIdCode x), b] s =
      (serviced x s a, okAnswer [byte ((serviced x s a).comp x).state.code,
        if ((serviced x s a).comp x).outPending = true then 1 else 0]) := by
  have hx : compilerOf (byte (compilerIdCode x)).toNat = some x := by cases x <;> rfl
  have hbit (v : Bool) : byte (bitsOf [v]) = if v = true then 1 else 0 := by cases v <;> rfl
  show (match compilerOf (byte (compilerIdCode x)).toNat, actionOf b.toNat with
    | some x, some a => _
    | _, _ => (s, refusal .badField (zeros 2))) = _
  rw [hx, hb, ← hbit]
  cases a <;> rfl

/-- Settles O44: the answer shows the compiler as the action left it. -/
theorem compilerServiceTakesOutAndIn : Obligations.CompilerServiceTakesOutAndIn := by
  refine ⟨fun q a b s h hbad => ⟨exec_answer rfl h rfl (ownCompilerService_of_bad hbad _),
    exec_answer rfl h rfl (ownCompilerService_of_bad hbad _)⟩, fun q x s h => ?_⟩
  have hcomp : s.hunted.comp x = s.comp x := by cases x <;> rfl
  rw [← hcomp]
  refine ⟨compilerOut x s.hunted, compilerIn x s.hunted, ?_, compilerOut_of_empty, compilerOut_of_out, compilerOut_of_busy,
    ?_, compilerIn_of_clear, compilerIn_of_paper, compilerIn_of_working⟩
  · exact exec_answer rfl h rfl (ownCompilerService_of_action x (b := 0) (a := .out) rfl s.hunted)
  · exact exec_answer rfl h rfl (ownCompilerService_of_action x (b := 1) (a := .in_) rfl s.hunted)

end Sys2Proof.Machine
end

section
/-! PROOFS. The covers FRONT and TOP (R69, R112, R113, R115) and Bin Service (R139). -/

namespace Sys2Proof.Machine

variable {s : State} {x : CompilerId}

/-! ## What a FRONT opening suspends (R112) -/

section
variable {c : Compiler}

theorem suspend_of_gathering (h : c.state = .gathering) : c.suspend = { c with settle := none } := by
  simp only [Compiler.suspend, h]

theorem suspend_of_report {p : CloseProgress} (h : c.state = .closing) (hc : c.close = some p) (hr : p.report ≠ none) :
    c.suspend = { c with
      close := some { p with report := none, noMore := true },
      packet := c.packet.map (fun k => { k with flags := { k.flags with stapleUnverified := true } }) } := by
  simp only [Compiler.suspend, h, hc, if_pos (Option.isSome_iff_ne_none.2 hr), Compiler.flagPacket]

theorem suspend_of_jog {p : CloseProgress} (h : c.state = .closing) (hc : c.close = some p) (hr : p.report = none) :
    c.suspend = { c with close := some { p with jogEnd := none } } := by
  simp [Compiler.suspend, h, hc, hr]

theorem suspend_of_transfer (h : c.state = .transfer) : c.suspend = { c with transfer := none } := by
  simp only [Compiler.suspend, h]

theorem suspend_of_clearWait (h : c.state = .clearWait) : c.suspend = { c with cycleMark := true } := by
  simp only [Compiler.suspend, h]

theorem suspend_of_idle (h : c.state = .empty ∨ c.state = .ready ∨ c.state = .out) : c.suspend = c := by
  rcases h with h | h | h <;> simp only [Compiler.suspend, h]

end

/-! ## What a FRONT closing restarts (R113, R115) -/

theorem resumeCompiler_of_gathering (h : (s.comp x).state = .gathering) : resumeCompiler x s = closeTest x s := by
  rw [resumeCompiler, h]

theorem resumeCompiler_of_closing (h : (s.comp x).state = .closing) :
    resumeCompiler x s = modComp x (restartJog s.now) s := by
  rw [resumeCompiler, h]

theorem resumeCompiler_of_transfer (h : (s.comp x).state = .transfer) : resumeCompiler x s = resumeTransfer x s := by
  rw [resumeCompiler, h]

theorem resumeCompiler_of_clearWait (h : (s.comp x).state = .clearWait) : resumeCompiler x s = clearWaitClosing x s := by
  rw [resumeCompiler, h]

theorem resumeCompiler_of_idle (h : (s.comp x).state = .empty ∨ (s.comp x).state = .ready ∨ (s.comp x).state = .out) :
    resumeCompiler x s = s := by
  rcases h with h | h | h <;> rw [resumeCompiler, h]

section
variable {c : Compiler} {p : CloseProgress} {now : Tick} (hc : c.close = some p)
include hc

theorem restartJog_of_stopped (hj : p.jogEnd = none) (hr : p.report = none) :
    restartJog now c = { c with jogStart := now, close := some { p with jogEnd := some (after now c.tJog) } } := by
  rw [restartJog, hc]
  exact if_pos (by simp [hj, hr])

theorem restartJog_of_running (h : p.jogEnd ≠ none ∨ p.report ≠ none) : restartJog now c = c := by
  rw [restartJog, hc]
  refine if_neg ?_
  rw [Bool.and_eq_true, Option.isNone_iff_eq_none, Option.isNone_iff_eq_none]
  rintro ⟨hj, hr⟩
  exact h.elim (· hj) (· hr)

end

/-- An update that leaves the compiler as it is changes nothing. -/
theorem modComp_of_eq {f : Compiler → Compiler} (h : f (s.comp x) = s.comp x) : modComp x f s = s :=
  (modComp_congr (g := id) h).trans (by cases x <;> rfl)

theorem resumeTransfer_of_running (h : (s.comp x).transfer ≠ none) : resumeTransfer x s = s :=
  if_pos (Option.isSome_iff_ne_none.2 h)

theorem resumeTransfer_of_no_paper (h : (s.comp x).transfer = none) (hp : (s.comp x).paper = false) :
    resumeTransfer x s = transferEnd x s := by
  rw [resumeTransfer, if_neg (by simp [h]), if_pos (by simp [hp])]

theorem resumeTransfer_of_paper (h : (s.comp x).transfer = none) (hp : (s.comp x).paper = true) :
    resumeTransfer x s = modComp x (fun c =>
      { c with transfer := some (after s.now (c.tTransfer + 5000)), transferStart := s.now }) s := by
  rw [resumeTransfer, if_neg (by simp [h]), if_neg (by simp [hp])]
  rfl

theorem clearWaitClosing_of_paper (hp : (s.comp x).paper = true) :
    clearWaitClosing x s = modComp x (fun c => { c with cycleMark := false }) s := if_pos hp

theorem clearWaitClosing_of_uncycled (hp : (s.comp x).paper = false) (hm : (s.comp x).cycleMark = false) :
    clearWaitClosing x s = s := by
  rw [clearWaitClosing, if_neg (by simp [hp]), if_neg (by simp [hm])]

theorem clearWaitClosing_of_cycled (hp : (s.comp x).paper = false) (hm : (s.comp x).cycleMark = true) :
    clearWaitClosing x s = paceTest (becomeEmpty x (modComp x (fun c => { c with cycleMark := false }) s)) := by
  rw [clearWaitClosing, if_neg (by simp [hp]), if_pos hm]

/-! ## The causes and the tray (R68, R69, R82) -/

theorem jamTest_of_uncovered (ht : s.tracker.transport = .halt) (hu : ∀ x : Sensor, s.tracker.readings.get x = false) :
    jamTest s = { s with tracker := { s.tracker with causes := { s.tracker.causes with jam := false } } } :=
  if_pos ⟨ht, (uncovered_iff _).2 hu⟩

theorem jamTest_of_kept (h : s.tracker.transport ≠ .halt ∨ ∃ x : Sensor, s.tracker.readings.get x = true) : jamTest s = s := by
  refine if_neg ?_
  rintro ⟨ht, hu⟩
  rcases h with h | ⟨x, hx⟩
  · exact h ht
  · simp [(uncovered_iff _).1 hu x] at hx

theorem trayFull_iff : s.trayFull = true ↔ s.purgeCapacity ≤ s.tracker.purgeCount := decide_eq_true_iff

theorem emptyTray_of_same (h : s.tracker.purgeCount < s.purgeCapacity ∨ s.purgeCapacity = 0) :
    emptyTray s = { s with tracker := { s.tracker with purgeCount := 0 } } := by
  refine if_pos (beq_iff_eq.2 (Bool.eq_iff_iff.2 ?_))
  rw [trayFull_iff, trayFull_iff]
  show _ ↔ s.purgeCapacity ≤ 0
  omega

theorem emptyTray_of_full (h : s.purgeCapacity ≤ s.tracker.purgeCount) (hc : 0 < s.purgeCapacity) :
    emptyTray s = paceTest { s with tracker := { s.tracker with purgeCount := 0 } } := by
  refine if_neg fun he => ?_
  have hfull := trayFull_iff.1 ((beq_iff_eq.1 he).symm.trans (trayFull_iff.2 h))
  exact absurd (show s.purgeCapacity ≤ 0 from hfull) (by omega)

/-- Settles O32: the tables of R112, R113 and R115 by the compiler's state, and the two covers by their own parts. -/
theorem coversHaltAndRelease : Obligations.CoversHaltAndRelease := by
  refine ⟨fun c => ⟨suspend_of_gathering, fun p => suspend_of_report, fun p => suspend_of_jog, suspend_of_transfer,
    suspend_of_clearWait, suspend_of_idle⟩, fun x s => ⟨resumeCompiler_of_gathering, fun p h hc => ?_, fun h => ?_, fun h => ?_,
    resumeCompiler_of_idle⟩, fun s => ⟨jamTest_of_uncovered, jamTest_of_kept⟩, ?_, fun s hl => ?_⟩
  · rw [resumeCompiler_of_closing h]
    exact ⟨fun hj hr => modComp_congr (restartJog_of_stopped hc hj hr), fun hn => modComp_of_eq (restartJog_of_running hc hn)⟩
  · rw [resumeCompiler_of_transfer h]
    exact ⟨resumeTransfer_of_running, resumeTransfer_of_no_paper, resumeTransfer_of_paper⟩
  · rw [resumeCompiler_of_clearWait h]
    refine ⟨clearWaitClosing_of_paper, clearWaitClosing_of_uncycled, fun hp hm ho => ?_, fun hp hm ho => ?_⟩
    · rw [clearWaitClosing_of_cycled hp hm, becomeEmpty_of_outPending (by rw [modComp_comp]; exact ho), modComp_modComp]
    · rw [clearWaitClosing_of_cycled hp hm, becomeEmpty_of_not_outPending (by rw [modComp_comp]; exact ho), modComp_modComp,
        modComp_comp, modComp_staged]
      rfl
  · rintro s u rfl
    exact ⟨emptyTray_of_same, emptyTray_of_full⟩
  · exact ⟨exec_coverOpen hl .top, exec_coverOpen hl .front, exec_coverClose hl .front, exec_coverClose hl .top⟩

/-! ## Bin Service (R139) -/

theorem takeOut_eq (q : Bin) :
    q.takeOut = if q.state = .opened then { q with preOpen := some .out } else { q with state := .out } := by
  obtain ⟨st, owner, packets, pre, door, paper⟩ := q
  cases st <;> rfl

section
variable {b : Fin 24}

theorem ownerOpen_of_none (h : (s.getBin b).owner = none) : ownerOpen s b = false := by
  rw [ownerOpen, h]; rfl

theorem inResult_of_none (h : (s.getBin b).owner = none) :
    inResult s b = (if (s.getBin b).paper then .held else .free, false) := if_pos (by rw [h]; rfl)

theorem inResult_of_open (h : ownerOpen s b = true) :
    inResult s b =
      (if (s.getBin b).height < s.binCapacity b ∧ (s.getBin b).packets.length < 40 then .owned else .full, false) := by
  have ho : ¬ (s.getBin b).owner.isNone = true := by
    rw [Option.isNone_iff_eq_none]
    intro hn
    simp [ownerOpen_of_none hn] at h
  rw [inResult, if_neg ho, if_pos h]
  simp only [Bool.and_eq_true, decide_eq_true_iff]
  rfl

section
variable (ho : (s.getBin b).owner ≠ none) (hc : ownerOpen s b = false)
include ho hc

theorem inResult_of_returned (hp : (s.getBin b).packets = []) : inResult s b = (.free, true) := by
  rw [inResult, if_neg (by simpa using ho), if_neg (by simp [hc]), if_pos (by simp [hp])]

theorem inResult_of_left (hp : (s.getBin b).packets ≠ []) : inResult s b = (.full, false) := by
  rw [inResult, if_neg (by simpa using ho), if_neg (by simp [hc]), if_neg (by simpa using hp)]

end

theorem bringIn_of_kept (h : (s.getBin b).state = .out) {st : BinState} (hr : inResult s b = (st, false)) :
    bringIn b s = settleBin b st s := by
  rw [bringIn, if_pos h, hr]; rfl

theorem bringIn_of_released (h : (s.getBin b).state = .out) {st : BinState} (hr : inResult s b = (st, true)) :
    bringIn b s = releaseBin b st s := by
  rw [bringIn, if_pos h, hr]; rfl

theorem bringIn_of_opened (h : (s.getBin b).state = .opened) (hp : (s.getBin b).preOpen = some .out) :
    bringIn b s = modBin b (fun q => { q with preOpen := some (inResult s b).1 })
      (if (inResult s b).2 = true then releaseOpen b s else s) := by
  rw [bringIn, if_neg (by simp [h]), if_pos ⟨h, hp⟩]

theorem bringIn_of_other (h : (s.getBin b).state ≠ .out)
    (hp : (s.getBin b).state ≠ .opened ∨ (s.getBin b).preOpen ≠ some .out) : bringIn b s = s := by
  rw [bringIn, if_neg h, if_neg fun hc => hp.elim (· hc.1) (· hc.2)]

end

theorem ownBinService_of_bad {p : List Byte} (h : fieldLe p 0 3 = 0 ∨ 1 < field p 3) :
    ownBinService p s = (s, refusal .badField [0]) := by
  rw [ownBinService]
  rcases h with h | h
  · dsimp only
    cases actionOf (field p 3) with
    | none => rfl
    | some a => exact if_pos h
  · rw [actionOf_eq_none (by omega) (by omega)]; rfl

theorem ownBinService_of_action {p : List Byte} {a : ServiceAction} (hm : fieldLe p 0 3 ≠ 0) (ha : actionOf (field p 3) = some a) :
    ownBinService p s = ((serveBins a (maskBins (fieldLe p 0 3)) s).1,
      okAnswer [byte (serveBins a (maskBins (fieldLe p 0 3)) s).2]) := by
  rw [ownBinService]
  dsimp only
  rw [ha]
  exact if_neg hm

/-- Settles O54: IN by the owner and the list of the bin; the count by the bin's own turn. -/
theorem binServiceTakesOutAndIn : Obligations.BinServiceTakesOutAndIn := by
  refine ⟨fun q p s h hp => ⟨fun hb => exec_answer rfl h hp (ownBinService_of_bad hb),
    fun hm ha => exec_answer rfl h hp (ownBinService_of_action (a := .out) hm (by rw [ha]; rfl)),
    fun hm ha => exec_answer rfl h hp (ownBinService_of_action (a := .in_) hm (by rw [ha]; rfl))⟩, fun b s => ?_,
    fun b s hs ho => bringIn_of_kept hs (inResult_of_none ho), fun b s hs ho => bringIn_of_kept hs (inResult_of_open ho),
    fun b s hs ho hc => ⟨fun hp => bringIn_of_released hs (inResult_of_returned ho hc hp),
      fun hp => bringIn_of_kept hs (inResult_of_left ho hc hp)⟩,
    fun b s => bringIn_of_opened, fun b s => bringIn_of_other, fun a b bs s => ⟨rfl, rfl, rfl, fun hs hp => ?_, fun h => ?_⟩⟩
  · show modBin b Bin.takeOut s = _
    rw [funext takeOut_eq]
  · exact if_pos ⟨hs, hp⟩
  · exact if_neg fun hc => h.elim (· hc.1) (· hc.2)

end Sys2Proof.Machine
end

section
/-! PROOFS. Open Run (R2, R3) and the checks of an Announce (R27 to R31): the fields of the payloads and the order of the
refusals. -/

namespace Sys2Proof.Machine

variable {s : State}

/-! ## Decoded fields (11.1, 11.3) -/

theorem runOf_eq_none_iff (v : Nat) : runOf v = none ↔ 15 < v := by
  unfold runOf; split <;> simp <;> omega
theorem runOf_val {v : Nat} {r : Fin 16} (h : runOf v = some r) : v = r.val := by
  unfold runOf at h
  split at h
  · cases h; rfl
  · cases h
theorem runOf_of_val {v : Nat} {r : Fin 16} (h : v = r.val) : runOf v = some r := by
  subst h
  rw [runOf, dif_pos r.isLt]

theorem patternOf_eq_none_iff : ∀ v : Nat, patternOf v = none ↔ 2 < v
  | 0 | 1 | 2 => by decide
  | _ + 3 => ⟨fun _ => by omega, fun _ => rfl⟩
theorem patternOf_code {v : Nat} {p : Pattern} (h : patternOf v = some p) : p.code = v := by
  unfold patternOf at h; split at h <;> cases h <;> rfl

theorem yesNoOf_eq_none_iff : ∀ v : Nat, yesNoOf v = none ↔ 1 < v
  | 0 | 1 => by decide
  | _ + 2 => ⟨fun _ => by omega, fun _ => rfl⟩
theorem yesNoOf_value {v : Nat} {b : Bool} (h : yesNoOf v = some b) : v = if b = true then 1 else 0 := by
  unfold yesNoOf at h; split at h <;> cases h <;> rfl

theorem fillOrderOf_eq_none_iff : ∀ v : Nat, fillOrderOf v = none ↔ 1 < v
  | 0 | 1 => by decide
  | _ + 2 => ⟨fun _ => by omega, fun _ => rfl⟩
theorem fillOrderOf_code {v : Nat} {o : FillOrder} (h : fillOrderOf v = some o) : o.code = v := by
  unfold fillOrderOf at h; split at h <;> cases h <;> rfl

theorem policyOf_eq_none_iff : ∀ v : Nat, policyOf v = none ↔ 1 < v
  | 0 | 1 => by decide
  | _ + 2 => ⟨fun _ => by omega, fun _ => rfl⟩
theorem policyOf_code {v : Nat} {o : Policy} (h : policyOf v = some o) : o.code = v := by
  unfold policyOf at h; split at h <;> cases h <;> rfl

theorem offsetModeOf_eq_none_iff : ∀ v : Nat, offsetModeOf v = none ↔ 1 < v
  | 0 | 1 => by decide
  | _ + 2 => ⟨fun _ => by omega, fun _ => rfl⟩
theorem offsetModeOf_code {v : Nat} {o : OffsetMode} (h : offsetModeOf v = some o) : o.code = v := by
  unfold offsetModeOf at h; split at h <;> cases h <;> rfl

theorem printable_iff (b : Byte) : printable b = true ↔ 0x20 ≤ b.toNat ∧ b.toNat ≤ 0x7E := by
  simp [printable]

/-- A decoding in steps fails at its first step or later. -/
theorem bind_eq_none_iff_or {α β : Type} {o : Option α} {f : α → Option β} {c d : Prop} (ho : o = none ↔ c)
    (hf : ∀ a, f a = none ↔ d) : o.bind f = none ↔ c ∨ d := by
  cases o with
  | none => exact ⟨fun _ => .inl (ho.1 rfl), fun _ => rfl⟩
  | some a =>
    have hc : ¬ c := fun h => nomatch ho.2 h
    rw [Option.bind_some, hf a, or_iff_right hc]

/-! ## Open Run (R2, R3) -/

/-- The last check of the fields of an Open Run. -/
theorem openRunCheck_eq_false_iff (p : List Byte) :
    (((p.drop 1).take 8).all printable && field p 9 != 0 && fieldLe p 12 3 != 0) = false ↔
      (∃ b ∈ (p.drop 1).take 8, b.toNat < 0x20 ∨ 0x7E < b.toNat) ∨ field p 9 = 0 ∨ fieldLe p 12 3 = 0 := by
  rw [← Bool.not_eq_true, Bool.and_eq_true, Bool.and_eq_true, List.all_eq_true, bne_iff_ne, bne_iff_ne]
  simp only [printable_iff, not_and_or, not_forall, not_not, Nat.not_le, exists_prop, or_assoc]

theorem openRunFields_eq_none_iff (p : List Byte) : openRunFields p = none ↔
    15 < field p 0 ∨ (∃ b ∈ (p.drop 1).take 8, b.toNat < 0x20 ∨ 0x7E < b.toNat) ∨ field p 9 = 0 ∨ 2 < field p 10 ∨
      1 < field p 11 ∨ fieldLe p 12 3 = 0 ∨ 1 < field p 15 ∨ 1 < field p 16 ∨ 1 < field p 17 := by
  have h : openRunFields p = none ↔ 15 < field p 0 ∨ 2 < field p 10 ∨ 1 < field p 11 ∨ 1 < field p 15 ∨ 1 < field p 16 ∨
      1 < field p 17 ∨ ((∃ b ∈ (p.drop 1).take 8, b.toNat < 0x20 ∨ 0x7E < b.toNat) ∨ field p 9 = 0 ∨ fieldLe p 12 3 = 0) := by
    refine bind_eq_none_iff_or (runOf_eq_none_iff _) fun r => bind_eq_none_iff_or (patternOf_eq_none_iff _) fun _ =>
      bind_eq_none_iff_or (yesNoOf_eq_none_iff _) fun _ => bind_eq_none_iff_or (fillOrderOf_eq_none_iff _) fun _ =>
      bind_eq_none_iff_or (policyOf_eq_none_iff _) fun _ => bind_eq_none_iff_or (offsetModeOf_eq_none_iff _) fun _ => ?_
    rw [← openRunCheck_eq_false_iff, ← Bool.not_eq_true]
    split
    next hc => exact ⟨fun h => (nomatch h), fun h => absurd hc h⟩
    next hc => exact ⟨fun _ => hc, fun _ => rfl⟩
  rw [h]
  simp only [or_assoc, or_comm, or_left_comm]

/-- A good Open Run: the decoded fields, and the record they make. -/
theorem openRunFields_eq_some {p : List Byte} {r : Fin 16} {run : Run} (h : openRunFields p = some (r, run)) :
    ∃ pattern requireStaple order policy offset, runOf (field p 0) = some r ∧ patternOf (field p 10) = some pattern ∧
      yesNoOf (field p 11) = some requireStaple ∧ fillOrderOf (field p 15) = some order ∧ policyOf (field p 16) = some policy ∧
      offsetModeOf (field p 17) = some offset ∧
      (((p.drop 1).take 8).all printable && field p 9 != 0 && fieldLe p 12 3 != 0) = true ∧
      run = { label := (p.drop 1).take 8, declared := field p 9, pattern := pattern, requireStaple := requireStaple,
              mask := BitVec.ofNat 24 (fieldLe p 12 3), order := order, policy := policy, offset := offset,
              active := none, owned := [], delivered := 0, aborted := 0, done := 0, nextSide := .left, state := .opened } := by
  simp only [openRunFields, Option.bind_eq_bind, Option.bind_eq_some_iff] at h
  obtain ⟨r', hr, pattern, hp, requireStaple, hy, order, ho, policy, hpo, offset, hof, h⟩ := h
  split at h
  next hc =>
    cases h
    exact ⟨pattern, requireStaple, order, policy, offset, hr, hp, hy, ho, hpo, hof, hc, rfl⟩
  next => cases h

theorem activeBin_setRun {r : Fin 16} {run : Run} (h : s.runs.length = 16) :
    (setRun r (some run) s).activeBin r = run.active := by
  have hr : r.val < s.runs.length := by rw [h]; exact r.isLt
  simp [State.activeBin, State.getRun, setRun, hr]

theorem ownOpenRun_of_bad {p : List Byte} (h : openRunFields p = none) : ownOpenRun p s = (s, refusal .badField [0]) := by
  rw [ownOpenRun, h]; rfl

section
variable {p : List Byte} {r : Fin 16} {run : Run} (h : openRunFields p = some (r, run))
include h

theorem ownOpenRun_of_inUse (hr : s.getRun r ≠ none) : ownOpenRun p s = (s, refusal .runInUse [0]) := by
  rw [ownOpenRun, h]
  exact if_pos (Option.isSome_iff_ne_none.2 hr)

theorem ownOpenRun_of_place (hr : s.getRun r = none) :
    ownOpenRun p s = (openClaim r run (setRun r (some run) s),
      okAnswer [byte (binCode ((openClaim r run (setRun r (some run) s)).activeBin r))]) := by
  rw [ownOpenRun, h]
  exact if_neg (by simp [hr])

end

theorem openClaim_of_none (r : Fin 16) {run : Run} (h : firstBin run (fun b => (s.getBin b).state == .free) = none) :
    openClaim r run s = s := by
  rw [openClaim, h]

theorem openClaim_of_free (r : Fin 16) {run : Run} {b : Fin 24}
    (h : firstBin run (fun b => (s.getBin b).state == .free) = some b) : openClaim r run s = targetEvent (claim r b s) := by
  rw [openClaim, h]

/-- Settles O18: the fields step by step, then the place and the first free bin. -/
theorem openRunCreatesTheRecord : Obligations.OpenRunCreatesTheRecord := by
  refine ⟨fun p r run h => ?_, openRunFields_eq_none_iff, fun q p s ht hp => ⟨fun hf => ?_, fun r run hf =>
    ⟨fun hr => ?_, fun hr hb hl => ?_, fun b hr hb => ⟨_, rfl, ?_⟩⟩⟩⟩
  · obtain ⟨pattern, requireStaple, order, policy, offset, hr, hpat, hy, ho, hpo, hof, hc, rfl⟩ := openRunFields_eq_some h
    simp only [Bool.and_eq_true, List.all_eq_true, bne_iff_ne] at hc
    obtain ⟨⟨hlabel, hdecl⟩, hmask⟩ := hc
    exact ⟨runOf_val hr, rfl, fun b hb => (printable_iff b).1 (hlabel b hb), rfl, hdecl, patternOf_code hpat, yesNoOf_value hy,
      rfl, hmask, fillOrderOf_code ho, policyOf_code hpo, offsetModeOf_code hof, rfl, rfl, rfl, rfl, rfl, rfl, rfl⟩
  · exact exec_answer rfl ht hp (ownOpenRun_of_bad hf)
  · exact exec_answer rfl ht hp (ownOpenRun_of_inUse (s := s.hunted) hf hr)
  · have hactive : run.active = none := by
      obtain ⟨_, _, _, _, _, -, -, -, -, -, -, -, rfl⟩ := openRunFields_eq_some hf
      rfl
    have ho := ownOpenRun_of_place (s := s.hunted) hf hr
    rw [openClaim_of_none (s := setRun r (some run) s.hunted) r hb, activeBin_setRun (s := s.hunted) hl, hactive] at ho
    exact exec_answer rfl ht hp ho
  · have ho := ownOpenRun_of_place (s := s.hunted) hf hr
    rw [openClaim_of_free (s := setRun r (some run) s.hunted) r hb] at ho
    exact exec_answer rfl ht hp ho

/-! ## The fields of an Announce (R27) -/

theorem announceFields_eq_none_iff (p : List Byte) : announceFields p = none ↔
    fieldLe p 0 2 = 0 ∨ 15 < field p 2 ∨ field p 3 = 0 ∨ field p 4 = 0 ∨ field p 5 < field p 4 ∨ 60 < field p 5 ∨
      7 < field p 6 ∨ fieldLe p 7 2 < 100 ∨ 432 < fieldLe p 7 2 ∨ 1 < field p 9 := by
  have h : announceFields p = none ↔ 15 < field p 2 ∨ (fieldLe p 0 2 = 0 ∨ field p 3 = 0 ∨ field p 4 = 0 ∨
      field p 5 < field p 4 ∨ 60 < field p 5 ∨ 7 < field p 6 ∨ fieldLe p 7 2 < 100 ∨ 432 < fieldLe p 7 2 ∨ 1 < field p 9) := by
    refine bind_eq_none_iff_or (runOf_eq_none_iff _) fun r => ?_
    dsimp only
    split
    next hc =>
      simp only [Bool.and_eq_true, bne_iff_ne, decide_eq_true_iff] at hc
      exact ⟨fun h => (nomatch h), fun h => absurd h (by omega)⟩
    next hc =>
      simp only [Bool.and_eq_true, bne_iff_ne, decide_eq_true_iff] at hc
      exact ⟨fun _ => by omega, fun _ => rfl⟩
  rw [h, or_left_comm]

theorem announceFields_eq_some {p : List Byte} {tag : Nat} {sh : Sheet} {rep : Bool}
    (h : announceFields p = some (tag, sh, rep)) :
    tag = fieldLe p 0 2 ∧ sh.key.run.val = field p 2 ∧ sh.key.set = field p 3 ∧ sh.page = field p 4 ∧ sh.pages = field p 5 ∧
      sh.media = field p 6 ∧ sh.length = fieldLe p 7 2 ∧ (rep = true ↔ field p 9 = 1) := by
  simp only [announceFields, Option.bind_eq_bind, Option.bind_eq_some_iff] at h
  obtain ⟨r, hr, h⟩ := h
  split at h
  next =>
    cases h
    exact ⟨rfl, (runOf_val hr).symm, rfl, rfl, rfl, rfl, rfl, beq_iff_eq⟩
  next => cases h

/-! ## The ten steps (R28) -/

theorem if_some_or {α : Type} (c : Prop) [Decidable c] (a : α) (o : Option α) :
    (if c then some a else none).or o = if c then some a else o := by split <;> rfl

theorem if_none_or {α : Type} (c : Prop) [Decidable c] (a : α) (o : Option α) :
    (if c then none else some a).or o = if c then o else some a := by
  split
  · rfl
  · rfl

/-- Steps 4 to 10 of R28. -/
def laterRefusal (s : State) (tag : Nat) (sh : Sheet) (rep : Bool) : Option Reason :=
  if 8000 < ((s.getSet sh.key).map (·.thickness)).getD 0 + s.mediaThickness sh.media then some .tooThick
  else if tagHeld s tag = true then some .duplicateTag
  else if 8 ≤ s.queue.length + s.placesHeld then some .queueFull
  else if ((s.getSet sh.key).isNone && s.freeSlot.isNone) = true then some .tableFull
  else if s.halted = true then some .halted
  else if (rep == (s.getSet sh.key).any (fun q => q.state == .recovering)) = true then
    if s.isDiverting sh.key = true then some .diverted else none
  else some .badField

theorem announceRefusal_eq (s : State) (tag : Nat) (sh : Sheet) (rep : Bool) :
    announceRefusal s tag sh rep = (runRefusal s sh.key).or ((doneRefusal s sh.key).or ((contiguityRefusal s sh).or
      (laterRefusal s tag sh rep))) := by
  simp only [announceRefusal, thicknessRefusal, slotRefusal, reprintRefusal, if_some_or, if_none_or]
  rfl

theorem announceRefusal_of_noRun {tag : Nat} {sh : Sheet} {rep : Bool} (h : s.getRun sh.key.run = none) :
    announceRefusal s tag sh rep = some .unknownRun := by
  rw [announceRefusal_eq, runRefusal, h]; rfl

section
variable {tag : Nat} {sh : Sheet} {rep : Bool} {run : Run} (hr : s.getRun sh.key.run = some run)
include hr

theorem announceRefusal_of_notOpen (h : run.state ≠ .opened) : announceRefusal s tag sh rep = some .runNotOpen := by
  have e : runRefusal s sh.key = some .runNotOpen := by rw [runRefusal, hr]; exact if_neg h
  rw [announceRefusal_eq, e]; rfl

theorem announceRefusal_of_open (h : run.state = .opened) :
    announceRefusal s tag sh rep = if setFinished s run sh.key = true then some .setDone
      else (contiguityRefusal s sh).or (laterRefusal s tag sh rep) := by
  have e : runRefusal s sh.key = none := by rw [runRefusal, hr]; exact if_pos h
  have ed : doneRefusal s sh.key = if setFinished s run sh.key = true then some .setDone else none := by
    rw [doneRefusal, hr]
  rw [announceRefusal_eq, e, ed, Option.none_or, if_some_or]

end

/-! ## The conditions of the steps -/

theorem any_state_iff {k : SetKey} {st : SetState} :
    (s.getSet k).any (fun q => q.state == st) = true ↔ ∃ x, s.getSet k = some x ∧ x.state = st := by
  simp [Option.any_eq_true]

theorem setFinished_iff {run : Run} {k : SetKey} :
    setFinished s run k = true ↔
      run.declared < k.set ∨ run.isDone k.set = true ∨ ∃ x, s.getSet k = some x ∧ x.aborted = true := by
  rw [setFinished, Bool.or_eq_true, Bool.or_eq_true, decide_eq_true_iff, Option.any_eq_true, or_assoc]

theorem tagHeld_iff {tag : Nat} : tagHeld s tag = true ↔
    (∃ e ∈ s.queue, e.tag = tag) ∨ (∃ r ∈ s.tracker.path, r.tag = tag) ∨ tag ∈ s.compA.tags ∨ tag ∈ s.compB.tags := by
  simp [tagHeld, or_assoc]

theorem freeSlot_eq_none_iff : s.freeSlot = none ↔ ∀ o ∈ s.sets, o ≠ none := by
  rw [State.freeSlot, List.findIdx?_eq_none_iff]
  simp only [Option.isNone_eq_false_iff, Option.isSome_iff_ne_none]

theorem tableFull_iff {k : SetKey} :
    ((s.getSet k).isNone && s.freeSlot.isNone) = true ↔ s.getSet k = none ∧ ∀ o ∈ s.sets, o ≠ none := by
  rw [Bool.and_eq_true, Option.isNone_iff_eq_none, Option.isNone_iff_eq_none, freeSlot_eq_none_iff]

theorem halted_iff : s.halted = true ↔ s.tracker.transport = .halt ∨ s.tracker.transport = .recover := by
  simp [State.halted]

theorem reprint_iff {k : SetKey} {rep : Bool} :
    (rep == (s.getSet k).any (fun q => q.state == .recovering)) = true ↔
      (rep = true ↔ ∃ x, s.getSet k = some x ∧ x.state = .recovering) := by
  rw [beq_iff_eq, Bool.eq_iff_iff, any_state_iff]

theorem otherAnnouncing_iff {k : SetKey} :
    otherAnnouncing s k = true ↔ ∃ x ∈ s.setRecs, x.key ≠ k ∧ x.state = .announcing := by
  simp [otherAnnouncing]

/-! ## Contiguity (R10) -/

theorem contiguityRefusal_of_noSet {sh : Sheet} (h : s.getSet sh.key = none) :
    contiguityRefusal s sh = if otherAnnouncing s sh.key = true then some .setInterleaved
      else if sh.page ≠ 1 then some .outOfOrder else none := by
  rw [contiguityRefusal, h]

/-- The page and the page count of a set that goes on. -/
def pageRefusal (sh : Sheet) (q : SetRec) : Option Reason :=
  if sh.page ≠ q.next then some .outOfOrder else if sh.pages ≠ q.pages then some .pagesMismatch else none

section
variable {sh : Sheet} {q : SetRec} (h : s.getSet sh.key = some q)
include h

theorem contiguityRefusal_of_interleaved (hs : q.state = .recovering) (ho : otherAnnouncing s sh.key = true) :
    contiguityRefusal s sh = some .setInterleaved := by
  rw [contiguityRefusal, h]
  dsimp only
  rw [hs]
  exact if_pos ho

theorem contiguityRefusal_of_going
    (hs : q.state = .announcing ∨ (q.state = .recovering ∧ otherAnnouncing s sh.key = false)) :
    contiguityRefusal s sh = pageRefusal sh q := by
  rw [contiguityRefusal, h]
  dsimp only
  rcases hs with hs | ⟨hs, ho⟩
  · rw [hs]; rfl
  · rw [hs]; exact if_neg (by simp [ho])

theorem contiguityRefusal_of_closed (hs : q.state = .fed ∨ q.state = .packing) : contiguityRefusal s sh = some .outOfOrder := by
  rw [contiguityRefusal, h]
  dsimp only
  rcases hs with hs | hs <;> rw [hs]

theorem contiguityRefusal_of_diverting (hs : q.state = .diverting) : contiguityRefusal s sh = none := by
  rw [contiguityRefusal, h]
  dsimp only
  rw [hs]

end

/-! ## An Announce that is let through -/

/-- Nothing refuses, or only the last step does. -/
def Passes (o : Option Reason) : Prop := o = none ∨ o = some .diverted

theorem passes_or {a b : Option Reason} (ha : a ≠ some .diverted) (h : Passes (a.or b)) : Passes b := by
  cases a with
  | none => exact h
  | some r =>
    rcases h with h | h
    · cases h
    · exact absurd h ha

theorem passes_if {c : Prop} [Decidable c] {r : Reason} {o : Option Reason} (hr : r ≠ .diverted)
    (h : Passes (if c then some r else o)) : ¬ c ∧ Passes o := by
  split at h
  next =>
    rcases h with h | h
    · cases h
    · cases h; exact absurd rfl hr
  next hc => exact ⟨hc, h⟩

theorem runRefusal_ne_diverted (k : SetKey) : runRefusal s k ≠ some .diverted := by
  unfold runRefusal
  split
  · simp
  · split <;> simp

theorem doneRefusal_ne_diverted (k : SetKey) : doneRefusal s k ≠ some .diverted := by
  unfold doneRefusal
  split
  · simp
  · split <;> simp

theorem contiguityRefusal_ne_diverted (sh : Sheet) : contiguityRefusal s sh ≠ some .diverted := by
  unfold contiguityRefusal
  repeat' split
  all_goals simp

theorem of_passes {tag : Nat} {sh : Sheet} {rep : Bool} (h : Passes (announceRefusal s tag sh rep)) :
    s.queue.length + s.placesHeld < 8 ∧ tagHeld s tag = false ∧ s.tracker.transport ≠ .halt ∧
      s.tracker.transport ≠ .recover := by
  rw [announceRefusal_eq] at h
  have h := passes_or (runRefusal_ne_diverted _) h
  have h := passes_or (doneRefusal_ne_diverted _) h
  have h := passes_or (contiguityRefusal_ne_diverted _) h
  rw [laterRefusal] at h
  obtain ⟨-, h⟩ := passes_if (by decide) h
  obtain ⟨hheld, h⟩ := passes_if (by decide) h
  obtain ⟨hfull, h⟩ := passes_if (by decide) h
  obtain ⟨-, h⟩ := passes_if (by decide) h
  obtain ⟨hhalt, -⟩ := passes_if (by decide) h
  rw [halted_iff, not_or] at hhalt
  exact ⟨by omega, by simpa using hheld, hhalt.1, hhalt.2⟩

theorem ownAnnounce_of_bad {p : List Byte} (h : announceFields p = none) :
    ownAnnounce p s = (s, refusal .badField [byte (8 - s.queue.length)]) := by
  rw [ownAnnounce, h]; rfl

section
variable {p : List Byte} {tag : Nat} {sh : Sheet} {rep : Bool} (h : announceFields p = some (tag, sh, rep))
include h

theorem ownAnnounce_of_refused {r : Reason} (hr : announceRefusal s tag sh rep = some r) :
    ownAnnounce p s = (s, refusal r [byte (8 - s.queue.length)]) := by
  rw [ownAnnounce, h]
  dsimp only
  rw [hr]
  rfl

theorem ownAnnounce_of_accepted (hr : announceRefusal s tag sh rep = none) :
    ownAnnounce p s = (acceptAnnounce tag sh rep s, okAnswer [byte (acceptAnnounce tag sh rep s).credits]) := by
  rw [ownAnnounce, h]
  dsimp only
  rw [hr]

end

theorem announceRefusal_hunted (tag : Nat) (sh : Sheet) (rep : Bool) :
    announceRefusal s.hunted tag sh rep = announceRefusal s tag sh rep := rfl

/-- Settles O22: the steps are one chain of tests, of which the first that fails gives its reason. -/
theorem refusedAnnounceChangesNothing : Obligations.RefusedAnnounceChangesNothing := by
  refine ⟨fun q p s ht hp => ⟨fun hf => exec_answer rfl ht hp (ownAnnounce_of_bad (s := s.hunted) hf),
      fun tag sh rep r hf hr => exec_answer rfl ht hp (ownAnnounce_of_refused (s := s.hunted) hf hr),
      fun tag sh rep hr => announceRefusal_of_noRun hr, fun tag sh rep h => of_passes h⟩,
    fun p => ⟨announceFields_eq_none_iff p, fun tag sh rep => announceFields_eq_some⟩,
    fun tag sh rep run s hr => ⟨announceRefusal_of_notOpen hr, ?_⟩, fun sh other s ho => ⟨fun hn => ?_, fun x hx => ?_⟩⟩
  · intro done thick held full slots still flag divert hdone hthick hheld hfull hslots hstill hflag hdivert hopen
    rw [← setFinished_iff] at hdone
    rw [← tagHeld_iff] at hheld
    rw [← tableFull_iff] at hslots
    rw [← halted_iff] at hstill
    rw [← reprint_iff] at hflag
    rw [← any_state_iff] at hdivert
    obtain rfl := propext hdone
    obtain rfl := propext hthick
    obtain rfl := propext hheld
    obtain rfl := propext hfull
    obtain rfl := propext hslots
    obtain rfl := propext hstill
    rw [announceRefusal_of_open hr hopen]
    refine ⟨fun h => if_pos h, fun h r hc => by rw [if_neg h, hc]; rfl, fun h hc => ?_⟩
    rw [if_neg h, hc, Option.none_or, laterRefusal]
    refine ⟨fun h1 => if_pos h1, fun h1 h2 => by rw [if_neg h1, if_pos h2],
      fun h1 h2 h3 => by rw [if_neg h1, if_neg h2, if_pos h3],
      fun h1 h2 h3 h4 => by rw [if_neg h1, if_neg h2, if_neg h3, if_pos h4],
      fun h1 h2 h3 h4 h5 => by rw [if_neg h1, if_neg h2, if_neg h3, if_neg h4, if_pos h5],
      fun h1 h2 h3 h4 h5 h6 => by rw [if_neg h1, if_neg h2, if_neg h3, if_neg h4, if_neg h5, if_neg (hflag.1 h6)],
      fun h1 h2 h3 h4 h5 h6 => ?_⟩
    rw [if_neg h1, if_neg h2, if_neg h3, if_neg h4, if_neg h5, if_pos (not_not.1 fun hn => h6 (hflag.2 hn))]
    exact ⟨fun h7 => if_pos (hdivert.1 h7), fun h7 => if_neg fun hd => h7 (hdivert.2 hd)⟩
  · rw [← otherAnnouncing_iff] at ho
    obtain rfl := propext ho
    rw [contiguityRefusal_of_noSet hn]
    exact ⟨fun h => if_pos h, fun h h1 => by rw [if_neg h, if_pos h1], fun h h1 => by rw [if_neg h, if_neg (not_not.2 h1)]⟩
  · rw [← otherAnnouncing_iff] at ho
    refine ⟨fun hs h => contiguityRefusal_of_interleaved hx hs (ho.1 h), fun hs => ?_, contiguityRefusal_of_closed hx,
      contiguityRefusal_of_diverting hx⟩
    rw [contiguityRefusal_of_going hx (hs.imp_right fun ⟨hs, hn⟩ => ⟨hs, by simpa [ho] using hn⟩), pageRefusal]
    exact ⟨fun h => if_pos h, fun h h' => by rw [if_neg (not_not.2 h), if_pos h'],
      fun h h' => by rw [if_neg (not_not.2 h), if_neg (not_not.2 h')]⟩

end Sys2Proof.Machine
end

section
/-! PROOFS. The run table and the set records (01): the checks of a run (R5 to R7, R135), removal and abort (R4, R14 to R17). -/

namespace Sys2Proof.Machine

variable {s : State}

/-! ## A run's checks (R5 to R7) -/

theorem Run.finished_iff (q : Run) : q.finished = true ↔ q.state ≠ .opened := by
  cases h : q.state <;> simp [Run.finished, h]

theorem runHas_of_getRun {r : Fin 16} {run : Run} (h : s.getRun r = some run) (p : Run → Bool) : s.runHas r p = p run := by
  rw [State.runHas, h, Option.any_some]

theorem runHasSets_iff {r : Fin 16} : s.runHasSets r = true ↔ ∃ x ∈ s.setRecs, x.key.run = r := by
  rw [State.runHasSets, List.any_eq_true]
  simp only [beq_iff_eq]

theorem runHasSets_eq_false {r : Fin 16} (h : ∀ x ∈ s.setRecs, x.key.run ≠ r) : s.runHasSets r = false := by
  rw [Bool.eq_false_iff, Ne, runHasSets_iff]
  rintro ⟨x, hx, e⟩
  exact h x hx e

section
variable {r : Fin 16} {run : Run} (hr : s.getRun r = some run)
include hr

theorem completionTest_of_complete (ho : run.state = .opened) (hc : run.delivered + run.aborted = run.declared) :
    completionTest r s = notify (.runDone r run.delivered run.aborted) (modRun r (fun q => { q with state := .done }) s) := by
  rw [completionTest, hr]
  exact if_pos ⟨ho, hc⟩

theorem completionTest_of_incomplete (h : run.state ≠ .opened ∨ run.delivered + run.aborted ≠ run.declared) :
    completionTest r s = s := by
  rw [completionTest, hr]
  exact if_neg fun hc => h.elim (· hc.1) (· hc.2)

theorem removeRunTest_of_kept (h : run.state = .opened ∨ run.owned ≠ [] ∨ ∃ x ∈ s.setRecs, x.key.run = r) :
    removeRunTest r s = s := by
  refine if_neg ?_
  rw [runHas_of_getRun hr, Bool.and_eq_true, Bool.and_eq_true, Run.finished_iff, List.isEmpty_iff, Bool.not_eq_true',
    ← Bool.not_eq_true, runHasSets_iff]
  rintro ⟨⟨hs, hown⟩, hset⟩
  rcases h with h | h | h
  · exact hs h
  · exact h hown
  · exact hset h

theorem removeRunTest_of_over (hs : run.state ≠ .opened) (hown : run.owned = []) (hset : ∀ x ∈ s.setRecs, x.key.run ≠ r) :
    removeRunTest r s = { s with runs := s.runs.set r.val none } := by
  refine if_pos ?_
  rw [runHas_of_getRun hr, (Run.finished_iff _).2 hs, hown, runHasSets_eq_false hset]
  rfl

theorem finishChecks_of_kept (h : run.state = .opened ∨ ∃ x ∈ s.setRecs, x.key.run = r) : finishChecks r s = s := by
  have hc : ¬ (s.runHas r Run.finished && !s.runHasSets r) = true := by
    rw [runHas_of_getRun hr, Bool.and_eq_true, Run.finished_iff, Bool.not_eq_true', ← Bool.not_eq_true, runHasSets_iff]
    exact fun ⟨hs, hset⟩ => h.elim hs hset
  rw [finishChecks, if_neg hc]
  exact removeRunTest_of_kept hr (h.imp_right .inr)

theorem finishChecks_of_over (hs : run.state ≠ .opened) (hset : ∀ x ∈ s.setRecs, x.key.run ≠ r) :
    finishChecks r s = removeRunTest r (releaseEach run.owned s) := by
  have hc : (s.runHas r Run.finished && !s.runHasSets r) = true := by
    rw [runHas_of_getRun hr, (Run.finished_iff _).2 hs, runHasSets_eq_false hset]; rfl
  rw [finishChecks, if_pos hc, hr]
  rfl

end

theorem Bin.returnable_iff (b : Bin) : b.returnable = true ↔ (b.state = .owned ∨ b.state = .full) ∧ b.packets = [] := by
  simp [Bin.returnable]

theorem releaseEach_eq (bs : List (Fin 24)) (s : State) : releaseEach bs s = bs.foldl (fun t b =>
    if ((t.getBin b).state = .owned ∨ (t.getBin b).state = .full) ∧ (t.getBin b).packets = [] then releaseBin b .free t
    else t) s := by
  induction bs generalizing s with
  | nil => rfl
  | cons b bs ih => simp only [releaseEach, List.foldl_cons, ih, Bin.returnable_iff]

/-- A bin that run `r` gives up for the state `st`, up to the arbitration (R135). -/
theorem releaseBin_of_owner {b : Fin 24} {r : Fin 16} (st : BinState) (h : (s.getBin b).owner = some r) :
    releaseBin b st s = if st = .free then targetEvent (removeRunTest r (modBin b (fun q => { q with state := st }) (disown b s)))
      else removeRunTest r (modBin b (fun q => { q with state := st }) (disown b s)) := by
  rw [releaseBin, h]

theorem disown_of_owner {b : Fin 24} {r : Fin 16} (h : (s.getBin b).owner = some r) :
    disown b s = modRun r (fun q =>
      { q with owned := q.owned.filter (fun c => c != b), active := if q.active = some b then none else q.active })
      (modBin b (fun q => { q with owner := none }) s) := by
  rw [disown, h]

/-! ## What holds a set's record (R16, R17) -/

theorem PathRec.of_iff (r : PathRec) (k : SetKey) : r.of k = true ↔ r.key = some k := beq_iff_eq

theorem hasConfirmed_iff {k : SetKey} :
    s.hasConfirmed k = true ↔ ∃ r ∈ s.tracker.path, r.kind = .confirmed ∧ r.key = some k := by
  simp only [State.hasConfirmed, List.any_eq_true, Bool.and_eq_true, beq_iff_eq, PathRec.of_iff]

theorem hasPacket_iff {k : SetKey} : s.hasPacket k = true ↔
    ∃ p : Packet, (s.compA.packet = some p ∨ s.compB.packet = some p ∨ s.shuttle.packet = some p) ∧ p.key = k := by
  have h (o : Option Packet) : o.any (fun p => p.key == k) = true ↔ ∃ p, o = some p ∧ p.key = k := by
    simp only [Option.any_eq_true, beq_iff_eq]
  rw [State.hasPacket, List.any_cons, List.any_cons, List.any_cons, List.any_nil, Bool.or_false, Bool.or_eq_true, Bool.or_eq_true,
    h, h, h]
  simp only [or_and_right, exists_or]

section
variable {k : SetKey} {x : SetRec} (hx : s.getSet k = some x)
include hx

theorem removalTest_of_gone (ha : x.aborted = true) (hc : s.hasConfirmed k = false) (hi : x.inCompiler = 0)
    (hp : s.hasPacket k = false) :
    removalTest k s = finishChecks k.run (completionTest k.run
      (modRun k.run (fun r => { r with aborted := r.aborted + 1, done := r.done ||| doneBit k.set }) (dropSet k s))) := by
  rw [removalTest, hx]
  exact if_pos (by simp [ha, hc, hi, hp])

theorem removalTest_of_kept (h : x.aborted = false ∨ s.hasConfirmed k = true ∨ x.inCompiler ≠ 0 ∨ s.hasPacket k = true) :
    removalTest k s = s := by
  rw [removalTest, hx]
  refine if_neg ?_
  simp only [Bool.and_eq_true, Bool.not_eq_true', beq_iff_eq]
  rintro ⟨⟨⟨ha, hc⟩, hi⟩, hp⟩
  rcases h with h | h | h | h
  · simp [h] at ha
  · simp [h] at hc
  · exact h hi
  · simp [h] at hp

theorem dropSet_of_unassigned (ha : x.assigned = none) : dropSet k s = clearSet k s := by
  rw [dropSet, hx, Option.bind_some, ha]

theorem dropSet_of_reserved {c : CompilerId} (ha : x.assigned = some (c, .reserved)) :
    dropSet k s = paceTest (modComp c (fun q => { q with reserved := none }) (clearSet k s)) := by
  rw [dropSet, hx, Option.bind_some, ha]

theorem dropSet_of_current {c : CompilerId} (ha : x.assigned = some (c, .current)) :
    dropSet k s = paceTest (releaseTest (promoteOrEmpty c (clearSet k s))) := by
  rw [dropSet, hx, Option.bind_some, ha]
  rfl

end

theorem getSet_clearSet (k : SetKey) (s : State) : (clearSet k s).getSet k = none := by
  rw [State.getSet, clearSet, List.findSome?_eq_none_iff]
  intro o ho
  obtain ⟨q, -, rfl⟩ := List.mem_map.1 ho
  cases q with
  | none => rfl
  | some q => by_cases h : q.key = k <;> simp [h]

/-! ## Aborting a set with a record (R15) -/

/-- The set, its entries and its TENTATIVE records as an abort marks them (R15, R34). -/
def markedAborted (k : SetKey) (s : State) : State :=
  { s with
    sets := s.sets.map (fun o => o.map (fun x => if x.key = k then
      { x with aborted := true, state := abortedState x.state } else x)),
    queue := s.queue.map (fun e => if e.sheet.key = k then { e with void := true } else e),
    tracker := { s.tracker with path := s.tracker.path.map (voidRec k) } }

theorem abortRecord_eq (k : SetKey) (s : State) :
    abortRecord k s = closeTestOf k (drainTest k (removalTest k (markedAborted k s))) := rfl

theorem abortedState_eq (st : SetState) : abortedState st = if st = .announcing ∨ st = .recovering then .fed else st := by
  cases st <;> rfl

theorem voidRec_eq (k : SetKey) (r : PathRec) : voidRec k r = if r.kind = .tentative ∧ r.key = some k then
    { r with tag := 0, kind := .void, route := .purge, reason := some .void } else r := by
  simp only [voidRec, PathRec.of_iff]

/-! ## The owner of Abort Set (R14) -/

theorem ownAbortSet_of_bad {p : List Byte} (h : 16 ≤ field p 0 ∨ field p 1 = 0) :
    ownAbortSet p s = (s, refusal .badField [0]) := by
  rw [ownAbortSet]
  cases hr : runOf (field p 0) with
  | none => rfl
  | some r =>
    have hlt := runOf_val hr
    exact if_pos (h.resolve_left (by omega))

section
variable {p : List Byte} {r : Fin 16} (hr : field p 0 = r.val) (hb : field p 1 ≠ 0)
include hr hb

theorem ownAbortSet_of_noRun (h : s.getRun r = none) : ownAbortSet p s = (s, refusal .unknownRun [0]) := by
  rw [ownAbortSet, runOf_of_val hr]
  dsimp only
  rw [if_neg hb, h]
  rfl

variable {run : Run} (h : s.getRun r = some run)
include h

theorem ownAbortSet_of_notOpen (ho : run.state ≠ .opened) : ownAbortSet p s = (s, refusal .runNotOpen [0]) := by
  rw [ownAbortSet, runOf_of_val hr]
  dsimp only
  rw [if_neg hb, h]
  exact if_pos ho

theorem ownAbortSet_of_finished (ho : run.state = .opened)
    (hf : setFinished s run { run := r, set := field p 1 } = true) : ownAbortSet p s = (s, refusal .setDone [0]) := by
  rw [ownAbortSet, runOf_of_val hr]
  dsimp only
  rw [if_neg hb, h]
  dsimp only
  rw [if_neg (not_not.2 ho)]
  exact if_pos hf

theorem ownAbortSet_of_accepted (ho : run.state = .opened)
    (hf : setFinished s run { run := r, set := field p 1 } = false) :
    ownAbortSet p s = abortSetNow { run := r, set := field p 1 } s := by
  rw [ownAbortSet, runOf_of_val hr]
  dsimp only
  rw [if_neg hb, h]
  dsimp only
  rw [if_neg (not_not.2 ho)]
  exact if_neg (by simp [hf])

end

theorem abortSetNow_of_noSet {k : SetKey} (h : s.getSet k = none) : abortSetNow k s =
    (finishChecks k.run (completionTest k.run
      (modRun k.run (fun x => { x with aborted := x.aborted + 1, done := x.done ||| doneBit k.set }) s)), okAnswer [0]) := by
  rw [abortSetNow, h]
  rfl

theorem abortSetNow_of_set {k : SetKey} {x : SetRec} (h : s.getSet k = some x) : abortSetNow k s =
    (abortRecord k s, okAnswer [if ((abortRecord k s).getSet k).isSome = true then 1 else 0]) := by
  have hbit (v : Bool) : byte (bitsOf [v]) = if v = true then 1 else 0 := by cases v <;> rfl
  rw [abortSetNow, h, ← hbit]

/-- Settles O20: the set by its record, the run by its counts, its bins and its set records. -/
theorem abortSetClosesOrMarks : Obligations.AbortSetClosesOrMarks := by
  refine ⟨fun r run s hr => ⟨completionTest_of_complete hr, completionTest_of_incomplete hr,
      fun h => ⟨finishChecks_of_kept hr h, removeRunTest_of_kept hr (h.imp_right .inr)⟩,
      fun hs hset => ⟨fun hown => removeRunTest_of_over hr hs hown hset, fun hown => removeRunTest_of_kept hr (.inr (.inl hown)),
        ?_⟩⟩,
    fun b r st s hb => ⟨_, rfl, ?_, ?_⟩,
    fun x s => ⟨_, rfl, fun y => promoteOrEmpty_of_reserved, promoteOrEmpty_of_outPending, promoteOrEmpty_of_empty⟩,
    fun q a b s ht => ⟨fun hbad => ?_, fun r ha hb => ⟨fun hr => ?_, fun run hr => ⟨fun ho => ?_, fun ho hf => ?_,
      fun ho hd hn hs => ?_, fun x ho hd hn hs ha' => ⟨_, rfl, ?_⟩⟩⟩⟩,
    fun k s => ⟨markedAborted k s, abortRecord_eq k s, rfl, ?_, ?_⟩, fun k x s hx => ⟨fun ha hc hi hp => ?_, fun h => ?_⟩,
    fun k x s hx => ⟨getSet_clearSet k s, dropSet_of_unassigned hx, fun c => dropSet_of_reserved hx,
      fun c => dropSet_of_current hx⟩⟩
  · rw [finishChecks_of_over hr hs hset, releaseEach_eq]
  · intro hst
    rw [releaseBin_of_owner st hb, if_pos hst, disown_of_owner hb]
    rfl
  · intro hst
    rw [releaseBin_of_owner st hb, if_neg hst, disown_of_owner hb]
  · rw [← toNat_eq_zero_iff] at hbad
    exact exec_answer rfl ht rfl (ownAbortSet_of_bad (p := [a, b]) hbad)
  · exact exec_answer rfl ht rfl (ownAbortSet_of_noRun (s := s.hunted) (p := [a, b]) ha (toNat_ne hb) hr)
  · exact exec_answer rfl ht rfl (ownAbortSet_of_notOpen (s := s.hunted) (p := [a, b]) ha (toNat_ne hb) hr ho)
  · have hf' : setFinished s.hunted run { run := r, set := field [a, b] 1 } = true := by
      rw [setFinished, Bool.or_eq_true, Bool.or_eq_true, decide_eq_true_iff, or_assoc]
      exact hf
    exact exec_answer rfl ht rfl (ownAbortSet_of_finished (s := s.hunted) (p := [a, b]) ha (toNat_ne hb) hr ho hf')
  · have hf' : setFinished s.hunted run { run := r, set := field [a, b] 1 } = false := by
      rw [← Bool.not_eq_true, setFinished_iff]
      rintro (h | h | ⟨y, hy, -⟩)
      · exact absurd h (Nat.not_lt.2 hd)
      · exact absurd (hn.symm.trans h) (by decide)
      · exact nomatch hs.symm.trans hy
    have hown := ownAbortSet_of_accepted (s := s.hunted) (p := [a, b]) ha (toNat_ne hb) hr ho hf'
    exact exec_answer rfl ht rfl (hown.trans (abortSetNow_of_noSet hs))
  · have hf' : setFinished s.hunted run { run := r, set := field [a, b] 1 } = false := by
      rw [← Bool.not_eq_true, setFinished_iff]
      rintro (h | h | ⟨y, hy, hy'⟩)
      · exact absurd h (Nat.not_lt.2 hd)
      · exact absurd (hn.symm.trans h) (by decide)
      · cases hs.symm.trans hy
        exact absurd (ha'.symm.trans hy') (by decide)
    have hown := ownAbortSet_of_accepted (s := s.hunted) (p := [a, b]) ha (toNat_ne hb) hr ho hf'
    exact exec_answer rfl ht rfl (hown.trans (abortSetNow_of_set hs))
  · simp only [markedAborted, abortedState_eq]
  · simp only [markedAborted, funext (voidRec_eq k)]
  · refine removalTest_of_gone hx ha ?_ hi ?_
    · rw [← Bool.not_eq_true, hasConfirmed_iff]
      rintro ⟨r, hr, hk, e⟩
      exact hc r hr hk e
    · rw [← Bool.not_eq_true, hasPacket_iff]
      rintro ⟨p, hpp, e⟩
      exact hp p hpp e
  · refine removalTest_of_kept hx ?_
    rw [hasConfirmed_iff, hasPacket_iff]
    exact h

/-! ## Abort Run (R4) -/

theorem ownAbortRun_of_bad {p : List Byte} (h : 16 ≤ field p 0) : ownAbortRun p s = (s, refusal .badField []) := by
  rw [ownAbortRun, (runOf_eq_none_iff _).2 (by omega)]

section
variable {p : List Byte} {r : Fin 16} (hr : field p 0 = r.val)
include hr

theorem ownAbortRun_of_noRun (h : s.getRun r = none) : ownAbortRun p s = (s, refusal .unknownRun []) := by
  rw [ownAbortRun, runOf_of_val hr]
  dsimp only
  rw [h]

theorem ownAbortRun_of_notOpen {run : Run} (h : s.getRun r = some run) (ho : run.state ≠ .opened) :
    ownAbortRun p s = (s, refusal .runNotOpen []) := by
  rw [ownAbortRun, runOf_of_val hr]
  dsimp only
  rw [h]
  exact if_neg ho

theorem ownAbortRun_of_open {run : Run} (h : s.getRun r = some run) (ho : run.state = .opened) :
    ownAbortRun p s = (abortRunNow r s, okAnswer []) := by
  rw [ownAbortRun, runOf_of_val hr]
  dsimp only
  rw [h]
  exact if_pos ho

end

/-- Settles O19: the owner's checks in order. -/
theorem abortRunEndsTheRun : Obligations.AbortRunEndsTheRun := by
  refine fun q b s ht => ⟨fun h => exec_answer rfl ht rfl (ownAbortRun_of_bad (p := [b]) h), fun r hr =>
    ⟨fun h => ?_, fun run h => ⟨fun ho => ?_, fun ho => ?_⟩⟩⟩
  · exact exec_answer rfl ht rfl (ownAbortRun_of_noRun (s := s.hunted) (p := [b]) hr h)
  · exact exec_answer rfl ht rfl (ownAbortRun_of_notOpen (s := s.hunted) (p := [b]) hr h ho)
  · exact exec_answer rfl ht rfl (ownAbortRun_of_open (s := s.hunted) (p := [b]) hr h ho)

end Sys2Proof.Machine
end

section
/-! PROOFS. The intake (02): an accepted Announce (R31, R32, R35), removal from the queue with its rollback (R18, R39, R40), and
the timers of the head (R36, R37, R41). -/

namespace Sys2Proof.Machine

variable {s t u : State}

/-! ## What the PATH and MEDIA latch writes (R173, R174) -/

theorem paceTest_eq (s : State) : paceTest s = { s with router := (paceTest s).router, link := (paceTest s).link } := by
  simp only [paceTest]
  split
  · rw [notify_eq]; rfl
  · split
    · rw [notify_eq]; rfl
    · rfl

/-- `t` differs from `s` at most in what a PATH and MEDIA latch writes: values, travels, the Pace mark and the notices. -/
def LatchOnly (s t : State) : Prop :=
  t = { s with
    staged := t.staged, latched := t.latched, router := t.router, link := t.link,
    tracker := { s.tracker with travels := t.tracker.travels } }

theorem LatchOnly.trans (h : LatchOnly s t) (h' : LatchOnly t u) : LatchOnly s u := by
  unfold LatchOnly at h h'
  calc u = { t with
      staged := u.staged, latched := u.latched, router := u.router, link := u.link,
      tracker := { t.tracker with travels := u.tracker.travels } } := h'
    _ = _ := by rw [h]

theorem latchOnly_notify (b : NoticeBody) (s : State) : LatchOnly s (notify b s) := by
  unfold LatchOnly; rw [notify_eq]

theorem latchOnly_paceTest (s : State) : LatchOnly s (paceTest s) := by
  unfold LatchOnly; rw [paceTest_eq]

theorem latchOnly_raise (i v against : Nat) (s : State) : LatchOnly s (raise i v against s) :=
  LatchOnly.trans (by rfl) (latchOnly_notify _ _)

theorem latchOnly_fixZ2 (s : State) : LatchOnly s (fixZ2 s) := by
  unfold fixZ2; split
  · exact latchOnly_raise _ _ _ _
  · rfl
theorem latchOnly_fixZ4 (s : State) : LatchOnly s (fixZ4 s) := by
  unfold fixZ4; split
  · exact latchOnly_raise _ _ _ _
  · rfl
theorem latchOnly_fixTJam (s : State) : LatchOnly s (fixTJam s) := by
  unfold fixTJam; split
  · exact latchOnly_raise _ _ _ _
  · rfl

theorem latchOnly_purgeCapacityTest (was : Bool) (s : State) : LatchOnly s (purgeCapacityTest was s) := by
  unfold purgeCapacityTest; split
  · rfl
  · split
    · exact latchOnly_paceTest _
    · exact (latchOnly_notify _ _).trans (latchOnly_paceTest _)

theorem latchOnly_latched (l : Latched) (s : State) : LatchOnly s { s with latched := l } := rfl

theorem latchOnly_travels (f : State → List Nat) (s : State) :
    LatchOnly s (modTracker (fun t => { t with travels := f s }) s) := rfl

theorem latchOnly_latchPathMedia (s : State) : LatchOnly s (latchPathMedia s) := by
  have hfix := (((latchOnly_latched { s.latched with path := s.staged.path, media := s.staged.media } s).trans
    (latchOnly_fixZ2 _)).trans (latchOnly_fixZ4 _)).trans (latchOnly_fixTJam _)
  exact (hfix.trans (latchOnly_travels (fun s => travelsOf s.latched.path) _)).trans (latchOnly_purgeCapacityTest _ _)

/-- A spin-up starts the transport and its timer, and latches (R32, R64). -/
theorem startSpinup_frame (hu : startSpinup s = u) :
    u = { s with
      staged := u.staged, latched := u.latched, router := u.router, link := u.link,
      tracker := { s.tracker with
        transport := .spinup, spinup := some (after s.now u.tSpinup), travels := u.tracker.travels } } := by
  have hl := latchOnly_latchPathMedia (modTracker (fun t => { t with transport := .spinup }) s)
  subst hu
  unfold startSpinup
  generalize latchPathMedia (modTracker (fun t => { t with transport := .spinup }) s) = m at hl ⊢
  unfold LatchOnly at hl
  rw [hl]
  rfl

/-! ## An accepted Announce (R8, R11, R31, R32) -/

/-- The entry of an accepted Announce. -/
def newEntry (tag : Nat) (sh : Sheet) (rep : Bool) : Entry :=
  { tag := tag, sheet := sh, reprint := rep, void := false, late := false }

/-- An accepted Announce before what the transport adds. -/
def enqueued (tag : Nat) (sh : Sheet) (rep : Bool) (s : State) : State :=
  { s with
    sets := (announceSet sh s).sets, queue := s.queue ++ [newEntry tag sh rep],
    tracker := { s.tracker with idle := none } }

theorem announceSet_eq (sh : Sheet) (s : State) : announceSet sh s = { s with sets := (announceSet sh s).sets } := by
  simp only [announceSet]
  repeat' split
  all_goals rfl

section
variable (tag : Nat) (sh : Sheet) (rep : Bool)

theorem acceptAnnounce_eq (s : State) : acceptAnnounce tag sh rep s =
    match s.tracker.transport with
    | .run => if s.queue.isEmpty then startWindow (enqueued tag sh rep s) else enqueued tag sh rep s
    | .off => startSpinup (enqueued tag sh rep s)
    | .spinup => enqueued tag sh rep s
    | .halt => enqueued tag sh rep s
    | .recover => enqueued tag sh rep s := by
  simp only [acceptAnnounce]
  rw [announceSet_eq]
  rfl

theorem acceptAnnounce_of_off (h : s.tracker.transport = .off) :
    acceptAnnounce tag sh rep s = startSpinup (enqueued tag sh rep s) := by
  rw [acceptAnnounce_eq, h]

theorem acceptAnnounce_of_head (h : s.tracker.transport = .run) (hq : s.queue = []) :
    acceptAnnounce tag sh rep s = { enqueued tag sh rep s with window := some s.now } := by
  rw [acceptAnnounce_eq, h, hq]
  show startWindow (enqueued tag sh rep s) = _
  have he : (enqueued tag sh rep s).queue = [newEntry tag sh rep] := by rw [enqueued, hq]; rfl
  rw [startWindow, he]
  show { enqueued tag sh rep s with queue := [newEntry tag sh rep], window := some s.now } = _
  rw [← he]

theorem acceptAnnounce_of_tail (h : s.tracker.transport ≠ .off) (hq : s.tracker.transport = .run → s.queue ≠ []) :
    acceptAnnounce tag sh rep s = enqueued tag sh rep s := by
  rw [acceptAnnounce_eq]
  cases ht : s.tracker.transport with
  | run => exact if_neg (by simpa using hq ht)
  | off => exact absurd ht h
  | spinup => rfl
  | halt => rfl
  | recover => rfl

/-- The head window after an accepted Announce (R35). -/
def windowAfter (s : State) : Option Tick := if s.tracker.transport = .run ∧ s.queue = [] then some s.now else s.window

theorem windowAfter_of_not_head (h : s.tracker.transport = .run → s.queue ≠ []) : windowAfter s = s.window :=
  if_neg fun ⟨ht, hq⟩ => h ht hq

/-- What an accepted Announce leaves as it was. -/
theorem acceptAnnounce_frame (hu : acceptAnnounce tag sh rep s = u) :
    u = { s with
      sets := (announceSet sh s).sets, queue := s.queue ++ [newEntry tag sh rep], window := windowAfter s,
      staged := u.staged, latched := u.latched, router := u.router, link := u.link,
      tracker := { s.tracker with
        idle := none, transport := u.tracker.transport, spinup := u.tracker.spinup, travels := u.tracker.travels } } := by
  subst hu
  by_cases ho : s.tracker.transport = .off
  · obtain ⟨u, hu⟩ : ∃ u, startSpinup (enqueued tag sh rep s) = u := ⟨_, rfl⟩
    have hf := startSpinup_frame hu
    rw [windowAfter_of_not_head (by simp [ho]), acceptAnnounce_of_off tag sh rep ho, hu, hf]
    rfl
  · by_cases hq : s.tracker.transport = .run ∧ s.queue = []
    · rw [acceptAnnounce_of_head tag sh rep hq.1 hq.2, windowAfter, if_pos hq]
      rfl
    · have hq' : s.tracker.transport = .run → s.queue ≠ [] := fun ht he => hq ⟨ht, he⟩
      rw [acceptAnnounce_of_tail tag sh rep ho hq', windowAfter_of_not_head hq']
      rfl

theorem acceptAnnounce_of_resting (h : s.tracker.transport ≠ .off) :
    (acceptAnnounce tag sh rep s).tracker.transport = s.tracker.transport ∧
      (acceptAnnounce tag sh rep s).tracker.spinup = s.tracker.spinup ∧
      (acceptAnnounce tag sh rep s).latched = s.latched := by
  by_cases hq : s.tracker.transport = .run ∧ s.queue = []
  · rw [acceptAnnounce_of_head tag sh rep hq.1 hq.2]
    exact ⟨rfl, rfl, rfl⟩
  · rw [acceptAnnounce_of_tail tag sh rep h fun ht he => hq ⟨ht, he⟩]
    exact ⟨rfl, rfl, rfl⟩

theorem acceptAnnounce_starts (h : s.tracker.transport = .off) :
    (acceptAnnounce tag sh rep s).tracker.transport = .spinup ∧
      (acceptAnnounce tag sh rep s).tracker.spinup = some (after s.now (acceptAnnounce tag sh rep s).tSpinup) := by
  obtain ⟨u, hu⟩ : ∃ u, startSpinup (enqueued tag sh rep s) = u := ⟨_, rfl⟩
  have hf := startSpinup_frame hu
  rw [acceptAnnounce_of_off tag sh rep h, hu]
  exact ⟨congrArg (fun u => u.tracker.transport) hf, congrArg (fun u => u.tracker.spinup) hf⟩

end

theorem announceSet_of_noSet {sh : Sheet} {i : Nat} (h : s.getSet sh.key = none) (hi : s.freeSlot = some i) :
    (announceSet sh s).sets = s.sets.set i (some (newSetRec sh (s.mediaThickness sh.media))) := by
  simp only [announceSet, h, hi]

theorem announceSet_of_set {sh : Sheet} (h : s.getSet sh.key ≠ none) :
    (announceSet sh s).sets = s.sets.map (fun o => o.map (fun x => if x.key = sh.key then
      advancedSet (s.mediaThickness sh.media) x else x)) := by
  obtain ⟨x, hx⟩ := Option.ne_none_iff_exists'.1 h
  simp only [announceSet, hx, modSet]

theorem advancedSet_eq (th : Nat) (x : SetRec) : advancedSet th x =
    { x with
      next := x.next + 1, announced := x.announced + 1, thickness := x.thickness + th,
      reprinted := if x.state = .recovering then true else x.reprinted,
      divertPage := if x.state = .recovering then none else x.divertPage,
      state := if x.announced + 1 = x.pages then .fed else .announcing } := by
  by_cases h : x.state = .recovering <;> simp [advancedSet, h]

/-- A set with no record finds a free slot when its Announce is accepted (step 7 of R28). -/
theorem freeSlot_of_accepted {tag : Nat} {sh : Sheet} {rep : Bool} (h : announceRefusal s tag sh rep = none)
    (hn : s.getSet sh.key = none) : ∃ i, s.freeSlot = some i := by
  have hp : Passes (announceRefusal s tag sh rep) := .inl h
  rw [announceRefusal_eq] at hp
  have hp := passes_or (runRefusal_ne_diverted _) hp
  have hp := passes_or (doneRefusal_ne_diverted _) hp
  have hp := passes_or (contiguityRefusal_ne_diverted _) hp
  rw [laterRefusal] at hp
  obtain ⟨-, hp⟩ := passes_if (by decide) hp
  obtain ⟨-, hp⟩ := passes_if (by decide) hp
  obtain ⟨-, hp⟩ := passes_if (by decide) hp
  obtain ⟨hslot, -⟩ := passes_if (by decide) hp
  refine Option.ne_none_iff_exists'.1 fun hf => hslot ?_
  rw [hn, hf]; rfl

theorem freeSlot_spec {i : Nat} (h : s.freeSlot = some i) : s.sets[i]? = some none ∧ ∀ j < i, s.sets[j]? ≠ some none := by
  obtain ⟨hi, hp, hj⟩ := List.findIdx?_eq_some_iff_getElem.1 h
  refine ⟨by rw [List.getElem?_eq_getElem hi, Option.isNone_iff_eq_none.1 hp], fun j hlt e => ?_⟩
  have hjl : j < s.sets.length := Nat.lt_trans hlt hi
  rw [List.getElem?_eq_getElem hjl, Option.some.injEq] at e
  exact hj j hlt (by rw [e]; rfl)

/-- Settles O21: the accepted Announce writes the set record, the queue and the transport's own. -/
theorem announceJoinsTheTail : Obligations.AnnounceJoinsTheTail := by
  intro q p tag sh rep s ht hp hf hr
  obtain ⟨u, hu⟩ : ∃ u, acceptAnnounce tag sh rep s.hunted = u := ⟨_, rfl⟩
  have hframe := acceptAnnounce_frame tag sh rep hu
  have hqueue : u.queue = s.queue ++ [newEntry tag sh rep] := congrArg State.queue hframe
  have hsets : u.sets = (announceSet sh s.hunted).sets := (congrArg State.sets hframe).trans rfl
  have hcredits : u.credits = 8 - (s.queue.length + 1) := by
    rw [State.credits, hqueue, List.length_append]; rfl
  have hown := ownAnnounce_of_accepted (s := s.hunted) hf hr
  rw [hu, hcredits] at hown
  refine ⟨u, exec_answer rfl ht hp hown, hqueue, fun hn => ?_, fun hs => ?_, congrArg (fun u => u.tracker.path) hframe,
    congrArg (fun u => u.tracker.idle) hframe, congrArg (fun u => u.guard) hframe, congrArg (fun u => u.runs) hframe,
    congrArg (fun u => u.bins) hframe, congrArg (fun u => u.shuttle) hframe, congrArg (fun u => u.compA) hframe,
    congrArg (fun u => u.compB) hframe, congrArg (fun u => u.recovery) hframe, congrArg (fun u => u.window) hframe, fun ho => ?_,
    fun ho => ?_⟩
  · obtain ⟨i, hi⟩ := freeSlot_of_accepted hr hn
    obtain ⟨hfree, hfirst⟩ := freeSlot_spec hi
    exact ⟨i, hfree, hfirst, hsets.trans (announceSet_of_noSet (s := s.hunted) hn hi)⟩
  · rw [hsets, announceSet_of_set (s := s.hunted) hs]
    simp only [advancedSet_eq]
    rfl
  · rw [← hu]
    exact acceptAnnounce_starts (s := s.hunted) tag sh rep ho
  · rw [← hu]
    exact acceptAnnounce_of_resting (s := s.hunted) tag sh rep ho

/-! ## Removal from the queue (R18, R39, R40) -/

theorem idleTest_eq (s : State) : idleTest s = { s with tracker := { s.tracker with idle := (idleTest s).tracker.idle } } := by
  unfold idleTest; split <;> rfl

theorem latchedPath_of_base (h : t.base = s.base) : t.latched.path = s.latched.path := by
  have e := congrArg (fun s : State => s.latched.path) h; exact e

/-- The queue cut at place `i`, before the rollback. -/
def cutAt (i : Nat) (s : State) : State :=
  { s with queue := s.queue.take i, window := if i = 0 then none else s.window }

theorem removeFrom_eq (i : Nat) (s : State) :
    removeFrom i s = idleTest { rollback (s.queue.drop i) (cutAt i s) with guard := some (after s.now s.tGuard) } := by
  have hb := base_rollback (s.queue.drop i) (cutAt i s)
  have hnow : (rollback (s.queue.drop i) (cutAt i s)).now = s.now := (now_of_base hb).trans rfl
  have hg : (rollback (s.queue.drop i) (cutAt i s)).tGuard = s.tGuard := by
    rw [State.tGuard, State.pathTicks, State.path, latchedPath_of_base hb]; rfl
  rw [← hnow, ← hg]; rfl

section
variable (i : Nat) (s : State)

theorem removeFrom_queue : (removeFrom i s).queue = s.queue.take i := by
  rw [removeFrom_eq, idleTest_eq]; exact (queue_of_base (base_rollback (s.queue.drop i) (cutAt i s))).trans rfl
theorem removeFrom_window : (removeFrom i s).window = if i = 0 then none else s.window := by
  rw [removeFrom_eq, idleTest_eq]; exact (window_of_base (base_rollback (s.queue.drop i) (cutAt i s))).trans rfl
theorem removeFrom_guard : (removeFrom i s).guard = some (after s.now s.tGuard) := by
  rw [removeFrom_eq, idleTest_eq]
theorem removeFrom_transport : (removeFrom i s).tracker.transport = s.tracker.transport := by
  rw [removeFrom_eq, idleTest_eq]; exact (transport_of_base (base_rollback (s.queue.drop i) (cutAt i s))).trans rfl
theorem removeFrom_pathLength : (removeFrom i s).tracker.path.length = s.tracker.path.length := by
  rw [removeFrom_eq, idleTest_eq]; exact (pathLength_of_base (base_rollback (s.queue.drop i) (cutAt i s))).trans rfl

end

theorem mem_foldl_entrySets (es : List Entry) (ks : List SetKey) (k : SetKey) :
    k ∈ es.foldl (fun ks e => if ks.contains e.sheet.key then ks else ks ++ [e.sheet.key]) ks ↔
      k ∈ ks ∨ k ∈ es.map (fun e => e.sheet.key) := by
  induction es generalizing ks with
  | nil => simp
  | cons e es ih =>
    rw [List.foldl_cons, ih, List.map_cons, List.mem_cons]
    by_cases h : ks.contains e.sheet.key = true
    · have hm : e.sheet.key ∈ ks := by simpa using h
      rw [if_pos h]
      refine ⟨fun hk => hk.imp_right .inr, fun hk => hk.elim .inl (·.elim (fun he => .inl (he ▸ hm)) .inr)⟩
    · rw [if_neg h, List.mem_append, List.mem_singleton, or_assoc]

theorem mem_entrySets (es : List Entry) (k : SetKey) : k ∈ entrySets es ↔ k ∈ es.map (fun e => e.sheet.key) := by
  rw [entrySets, mem_foldl_entrySets]
  simp

theorem foldl_sub_eq {α : Type} (f : α → Nat) (es : List α) (n : Nat) :
    es.foldl (fun t e => t - f e) n = n - (es.map f).sum := by
  induction es generalizing n with
  | nil => rfl
  | cons e es ih => rw [List.foldl_cons, ih, List.map_cons, List.sum_cons, Nat.sub_sub]

/-- The counts of set `k` fall by its removed entries (R18). -/
def fallen (es : List Entry) (k : SetKey) (s : State) : State :=
  modSet k (rolledBack s (es.filter (fun e => e.sheet.key == k))) s

theorem rollbackSet_eq (es : List Entry) (k : SetKey) (s : State) : rollbackSet es k s =
    if ((fallen es k s).getSet k).any (fun q => q.announced == 0 && q.confirmed == 0) = true then dropSet k (fallen es k s)
    else drainTest k (fallen es k s) := rfl

theorem nothingLeft_iff {k : SetKey} : (s.getSet k).any (fun q => q.announced == 0 && q.confirmed == 0) = true ↔
    ∃ y, s.getSet k = some y ∧ y.announced = 0 ∧ y.confirmed = 0 := by
  simp only [Option.any_eq_true, Bool.and_eq_true, beq_iff_eq]

/-! ## The owner of Withdraw (R39) -/

section
variable {p : List Byte}

theorem ownWithdraw_of_zero (h : fieldLe p 0 2 = 0) :
    ownWithdraw p s = (s, refusal .badField [0, byte (8 - s.queue.length)]) := if_pos h

theorem ownWithdraw_of_late (h : fieldLe p 0 2 ≠ 0) (ht : tagInMachine s (fieldLe p 0 2) = true) :
    ownWithdraw p s = (s, refusal .tooLate [0, byte (8 - s.queue.length)]) :=
  (if_neg h).trans (if_pos ht)

theorem ownWithdraw_of_absent (h : fieldLe p 0 2 ≠ 0) (ht : tagInMachine s (fieldLe p 0 2) = false)
    (hq : s.queue.findIdx? (fun e => e.tag == fieldLe p 0 2) = none) :
    ownWithdraw p s = (s, refusal .notFound [0, byte (8 - s.queue.length)]) := by
  rw [ownWithdraw]
  dsimp only
  rw [if_neg h, if_neg (by simp [ht]), hq]
  rfl

theorem ownWithdraw_of_found {i : Nat} (h : fieldLe p 0 2 ≠ 0) (ht : tagInMachine s (fieldLe p 0 2) = false)
    (hq : s.queue.findIdx? (fun e => e.tag == fieldLe p 0 2) = some i) :
    ownWithdraw p s = (removeFrom i s, okAnswer [byte (s.queue.length - i), byte (8 - i)]) := by
  have hi : i < s.queue.length := (List.findIdx?_eq_some_iff_getElem.1 hq).1
  have hc : (removeFrom i s).credits = 8 - i := by
    rw [State.credits, removeFrom_queue, List.length_take, Nat.min_eq_left (by omega)]; rfl
  rw [ownWithdraw]
  dsimp only
  rw [if_neg h, if_neg (by simp [ht]), hq]
  dsimp only
  rw [hc]

end

/-- Settles O23: the checks of the tag, the removal, and the rollback set by set. -/
theorem withdrawTakesTheTail : Obligations.WithdrawTakesTheTail := by
  refine ⟨fun q p s ht hp => ⟨fun h => ?_, fun h hm => ?_, fun h hm hq => ?_, fun i h hm hq => ?_⟩,
    fun i s => ⟨cutAt i s, rollback (s.queue.drop i) (cutAt i s), rfl, ?_, removeFrom_eq i s⟩, fun es k s => ⟨fallen es k s, ?_, fun h => ?_,
      fun h => ?_⟩⟩
  · exact exec_answer rfl ht hp (ownWithdraw_of_zero (s := s.hunted) h)
  · exact exec_answer rfl ht hp (ownWithdraw_of_late (s := s.hunted) h hm)
  · have hn : s.queue.findIdx? (fun e => e.tag == fieldLe p 0 2) = none :=
      List.findIdx?_eq_none_iff.2 fun e he => by simpa using hq e he
    exact exec_answer rfl ht hp (ownWithdraw_of_absent (s := s.hunted) h hm hn)
  · exact ⟨removeFrom i s.hunted, exec_answer rfl ht hp (ownWithdraw_of_found (s := s.hunted) h hm hq), rfl,
      removeFrom_queue i _, removeFrom_guard i _, removeFrom_window i _, removeFrom_transport i _, removeFrom_pathLength i _⟩
  · rintro ks rfl
    exact ⟨mem_entrySets _, rfl⟩
  · rintro own rfl
    simp only [← foldl_sub_eq]
    rfl
  · rw [rollbackSet_eq, if_pos (nothingLeft_iff.2 h)]
  · rw [rollbackSet_eq, if_neg]
    rw [nothingLeft_iff]
    rintro ⟨y, hy, ha, hc⟩
    exact (h y hy).elim (· ha) (· hc)

/-! ## The head's timers (R36, R37, R41) -/

theorem exec_guardEnd {d : Tick} (hg : s.guard = some d) (hd : reached s.now d = true) :
    exec .guardEnd s = .next { s with guard := none } :=
  congrArg Host.Outcome.next (if_pos (expired_of_reached hg hd))

section
variable {e : Entry} {es : List Entry} {w : Tick} (hq : s.queue = e :: es) (hw : s.window = some w)
include hq hw

theorem exec_entryLate (hl : e.late = false) (hd : reached s.now (after w s.wEntry) = true) :
    exec .entryLate s = .next (notify (.entryLate e.tag e.sheet.key e.sheet.page w)
      { s with queue := { e with late := true } :: es }) := by
  show execEntryLate s = _
  rw [execEntryLate, hq, hw]
  exact congrArg _ (if_pos (by simp [hl, hd]))

theorem exec_sheetMissing (hd : reached s.now (after w (2 * s.wEntry)) = true) :
    exec .sheetMissing s = .next (notify (.sheetMissing e.tag (es.length + 1)) (removeFrom 0 s)) := by
  show execSheetMissing s = _
  rw [execSheetMissing, hq, hw]
  exact congrArg _ (if_pos hd)

end

/-- Settles O24: the head's window gives LATE, then a removal from the head. -/
theorem headWindowAndGuardEnd : Obligations.HeadWindowAndGuardEnd := by
  refine ⟨fun e es w s hq hw => ⟨exec_entryLate hq hw, fun hd => ⟨removeFrom 0 s, exec_sheetMissing hq hw hd, rfl, ?_,
    removeFrom_window 0 s, removeFrom_guard 0 s, removeFrom_transport 0 s⟩⟩, fun d s hg hd => exec_guardEnd hg hd⟩
  rw [removeFrom_queue, List.take_zero]

end Sys2Proof.Machine
end

section
/-! PROOFS. Events at S0 in RUN: the head matched at a lead event (R42, R43), the record measured at a clear event (R44), and the
Router's decision on its route (R83 to R85). -/

namespace Sys2Proof.Machine

variable {s u : State}

/-! ## A path sensor's event in RUN (R72, R76, R78) -/

/-- A path sensor's input and its reading take a level. -/
def sensorRead (x : Sensor) (v : Bool) (s : State) : State := setReading x v (modPins (Pins.setSensor x v) s)

theorem exec_s0Lead_of_run (hl : s.loading = false) (ht : s.tracker.transport = .run) :
    exec .s0Lead s = .next (s0LeadRun (sensorRead .s0 true s)) := by
  rw [exec_s0Lead hl]
  exact congrArg Host.Outcome.next (if_pos ht)

theorem exec_sensorLead_of_run {x : Sensor} (hx : x ≠ .s0) (hl : s.loading = false) (ht : s.tracker.transport = .run) :
    exec (.sensorLead x) s = .next (leadInRun x (sensorRead x true s)) := by
  rw [exec_sensorLead hl x hx]
  exact congrArg Host.Outcome.next (if_pos ht)

theorem clearEvent_of_run (x : Sensor) (f : Nat → PathRec → State → State) (ht : s.tracker.transport = .run) :
    clearEvent x f s = clearInRun x f (setReading x false s) := by
  simp only [clearEvent, setReading_transport, ht]

theorem exec_s0Clear_of_run (hl : s.loading = false) (ht : s.tracker.transport = .run) :
    exec .s0Clear s = .next (clearInRun .s0 s0ClearRec (sensorRead .s0 false s)) := by
  rw [exec_s0Clear hl, clearEvent_of_run .s0 _ (by simpa using ht)]
  rfl

theorem exec_sensorClear_of_run {x : Sensor} (hx : x ≠ .s0) (hl : s.loading = false) (ht : s.tracker.transport = .run) :
    exec (.sensorClear x) s = .next (clearInRun x (clearOfRec x) (sensorRead x false s)) := by
  rw [exec_sensorClear hl x hx, clearEvent_of_run x _ (by simpa using ht)]
  rfl

theorem clearInRun_of_none {x : Sensor} (f : Nat → PathRec → State → State) (h : coveringRec s x = none) :
    clearInRun x f s = jamAtSensor .unexpected x s := by
  rw [clearInRun, h]

theorem clearInRun_of_rec {x : Sensor} (f : Nat → PathRec → State → State) {i : Nat} {r : PathRec} (h : coveringRec s x = some i)
    (hr : s.tracker.path[i]? = some r) : clearInRun x f s = f i r s := by
  rw [clearInRun, h]
  dsimp only
  rw [hr]

/-! ## The S0 lead event (R42, R43) -/

theorem s0LeadRun_of_full (h : 12 ≤ s.tracker.path.length) : s0LeadRun s = jamAtSensor .overfill .s0 s := if_pos h

section
variable (hp : s.tracker.path.length < 12)
include hp

theorem s0LeadRun_of_guard (hg : s.guard ≠ none) : s0LeadRun s = strayAtLead .guard s :=
  (if_neg (Nat.not_le.2 hp)).trans (if_pos (Option.isSome_iff_ne_none.2 hg))

theorem s0LeadRun_of_unannounced (hg : s.guard = none) (hq : s.queue = []) : s0LeadRun s = strayAtLead .unannounced s := by
  rw [s0LeadRun, if_neg (show ¬ Config.pathPlaces ≤ s.tracker.path.length from Nat.not_le.2 hp), hg, hq]
  rfl

theorem s0LeadRun_of_head {e : Entry} {es : List Entry} (hg : s.guard = none) (hq : s.queue = e :: es) :
    s0LeadRun s = matchHead e es s := by
  rw [s0LeadRun, if_neg (show ¬ Config.pathPlaces ≤ s.tracker.path.length from Nat.not_le.2 hp), hg, hq]
  rfl

end

theorem matchHead_of_void {e : Entry} (es : List Entry) (h : e.void = true) :
    matchHead e es s = purgeRouteTest (takeHead es (addRec (newRec s 0 .void (some e.sheet) .purge (some .void)) s)) := if_pos h

theorem matchHead_of_live {e : Entry} (es : List Entry) (h : e.void = false) :
    matchHead e es s = takeHead es (addRec (newRec s e.tag .tentative (some e.sheet) .unset none) s) := if_neg (by simp [h])

/-- What a new head does: its mark, and its window. -/
theorem startWindow_eq (s : State) : startWindow s =
    { s with queue := (startWindow s).queue, window := if s.queue = [] then none else some s.now } := by
  cases hq : s.queue with
  | nil => simp only [startWindow, hq, if_true]
  | cons e es => simp only [startWindow, hq, if_neg (List.cons_ne_nil e es)]

theorem startWindow_tags (s : State) : (startWindow s).queue.map (·.tag) = s.queue.map (·.tag) := by
  cases hq : s.queue with
  | nil => simp only [startWindow, hq]
  | cons e es => simp only [startWindow, hq, List.map_cons]

theorem takeHead_eq (es : List Entry) (s : State) : takeHead es s =
    { s with queue := (takeHead es s).queue, window := if es = [] then none else some s.now } := startWindow_eq _

theorem takeHead_tags (es : List Entry) (s : State) : (takeHead es s).queue.map (·.tag) = es.map (·.tag) := startWindow_tags _

theorem placesHeld_addRec {r : PathRec} (hk : r.kind = .tentative) (hc : r.clear.s0 = none) :
    (addRec r s).placesHeld = s.placesHeld + 1 := by
  have hp : (addRec r s).tracker.path = s.tracker.path ++ [r] := rfl
  rw [State.placesHeld, hp, List.countP_append, List.countP_singleton]
  simp [hk, hc, State.placesHeld]

/-- Settles O25: the cases of R42 in order. -/
theorem s0LeadMatchesTheHead : Obligations.S0LeadMatchesTheHead := by
  refine ⟨fun c s => ⟨newRec s 0 .stray none .purge (some .stray), rfl, rfl, rfl, rfl, rfl, rfl, rfl, rfl, rfl, rfl⟩,
    fun s hl ht => ⟨sensorRead .s0 true s, rfl, ?_⟩⟩
  rw [exec_s0Lead_of_run hl ht]
  refine ⟨fun hp => congrArg _ (s0LeadRun_of_full hp), fun hp hg => congrArg _ (s0LeadRun_of_guard hp hg),
    fun hp hg hq => congrArg _ (s0LeadRun_of_unannounced hp hg hq), fun e es hp hg hq => ?_⟩
  rw [s0LeadRun_of_head (s := sensorRead .s0 true s) hp hg hq]
  refine ⟨fun hv => congrArg _ (matchHead_of_void es hv), fun hv => ?_⟩
  rw [matchHead_of_live es hv]
  obtain ⟨r, hr⟩ : ∃ r, newRec (sensorRead .s0 true s) e.tag .tentative (some e.sheet) .unset none = r := ⟨_, rfl⟩
  refine ⟨r, _, by rw [hr], ?_⟩
  obtain ⟨t, htake⟩ : ∃ t, takeHead es (addRec r (sensorRead .s0 true s)) = t := ⟨_, rfl⟩
  have hframe := takeHead_eq es (addRec r (sensorRead .s0 true s))
  have htags := takeHead_tags es (addRec r (sensorRead .s0 true s))
  rw [htake] at hframe htags
  have hplaces : t.placesHeld = s.placesHeld + 1 := by
    rw [hframe]
    exact placesHeld_addRec (s := sensorRead .s0 true s) (by rw [← hr]; rfl) (by rw [← hr]; rfl)
  rw [htake]
  subst hr
  exact ⟨rfl, rfl, rfl, rfl, rfl, rfl, rfl, rfl, congrArg (fun t => t.tracker.path) hframe,
    congrArg (fun t => t.tracker.idle) hframe, congrArg (fun t => t.tracker.readings.s0) hframe,
    (congrArg (fun t => t.tracker.transport) hframe).trans ht, hplaces, htags, congrArg (fun t => t.window) hframe,
    congrArg (fun t => t.sets) hframe, congrArg (fun t => t.runs) hframe, congrArg (fun t => t.link) hframe⟩

/-! ## The route decision (R83 to R85) -/

theorem purgeRouteTest_of_full (h : s.purgeCapacity ≤ s.tracker.purgeCount) :
    purgeRouteTest s = halt .purgeFull none (.purgeFull s.tracker.purgeCount s.purgeCapacity true) s :=
  if_pos (trayFull_iff.2 h)

theorem purgeRouteTest_of_room (h : s.tracker.purgeCount < s.purgeCapacity) : purgeRouteTest s = s :=
  if_neg fun hf => absurd (trayFull_iff.1 hf) (Nat.not_le.2 h)

theorem isDiverting_of_getSet {k : SetKey} {q : SetRec} (h : s.getSet k = some q) :
    s.isDiverting k = (q.state == .diverting) := by
  rw [State.isDiverting, h, Option.any_some]

/-- The purge tray test of a route just decided. -/
def purgeTestAt (i : Nat) (s : State) : State :=
  if (s.tracker.path[i]?).any (fun q => q.route == .purge) then purgeRouteTest s else s

/-- The route of the record at a place. -/
def routeAt (i : Nat) (s : State) : Option Route := (s.tracker.path[i]?).map (·.route)

theorem any_purge_iff (i : Nat) : (s.tracker.path[i]?).any (fun q => q.route == .purge) = true ↔ routeAt i s = some .purge := by
  rw [routeAt, Option.any_eq_true, Option.map_eq_some_iff]
  simp only [beq_iff_eq]

theorem purgeTestAt_of_purge {i : Nat} (h : routeAt i s = some .purge) : purgeTestAt i s = purgeRouteTest s :=
  if_pos ((any_purge_iff i).2 h)

theorem purgeTestAt_of_other {i : Nat} {r : Route} (h : routeAt i s = some r) (hr : r ≠ .purge) : purgeTestAt i s = s :=
  if_neg fun hp => hr (Option.some.inj (h.symm.trans ((any_purge_iff i).1 hp)))

theorem routeAt_setRoute {i : Nat} (r : Route) (reason : Option DivertReason) (h : i < s.tracker.path.length) :
    routeAt i (setRoute i r reason s) = some r := by
  rw [routeAt, setRoute, getElem?_modRec, List.getElem?_eq_getElem h]; rfl

theorem routeAt_eq_of_base {i : Nat} {r : Route} (h : u.base = s.base) (hr : routeAt i s = some r) : routeAt i u = some r :=
  (routeAt_of_base h i).trans hr

section
variable {i : Nat} {r : PathRec} {sh : Sheet} {q : SetRec} (hq : s.getSet sh.key = some q)
include hq

theorem routeDecision_of_diverting (hd : q.state = .diverting) :
    routeDecision i r sh s = purgeTestAt i (setRoute i .purge (some .setDiverted) s) :=
  congrArg (purgeTestAt i) (if_pos (by rw [isDiverting_of_getSet hq, hd]; rfl))

theorem routeDecision_of_assigned {x : CompilerId} {role : Role} (hd : q.state ≠ .diverting) (ha : q.assigned = some (x, role)) :
    routeDecision i r sh s = purgeTestAt i (setRoute i (.to x) none s) := by
  refine congrArg (purgeTestAt i) ((if_neg (by rw [isDiverting_of_getSet hq]; simpa using hd)).trans ?_)
  rw [hq, Option.bind_some, ha]

theorem routeDecision_of_new (hd : q.state ≠ .diverting) (ha : q.assigned = none) :
    routeDecision i r sh s = purgeTestAt i (newSetChoice i r sh s) := by
  refine congrArg (purgeTestAt i) ((if_neg (by rw [isDiverting_of_getSet hq]; simpa using hd)).trans ?_)
  rw [hq, Option.bind_some, ha]

end

section
variable {i : Nat} {r : PathRec} {sh : Sheet} {run : Run} (hr : s.getRun sh.key.run = some run)
include hr

theorem newSetChoice_of_none (hc : chooseCompiler s run = none) : newSetChoice i r sh s =
    drainTest sh.key (divertSet sh.key sh.page .noCompiler (setRoute i .purge (some .noCompiler) s)) := by
  rw [newSetChoice, hr, Option.bind_some, hc]

theorem newSetChoice_of_some {x : CompilerId} (hc : chooseCompiler s run = some x) :
    newSetChoice i r sh s = takeNewSet i r.tag sh.key (r.lead.s0.getD s.now) x s := by
  rw [newSetChoice, hr, Option.bind_some, hc]

end

/-- The state of a compiler that takes a new set, before the gap. -/
def newSetTaken (i : Nat) (k : SetKey) (x : CompilerId) (s : State) : State :=
  modRouter (fun r => { r with lastTaker := x }) (assign x k (setRoute i (.to x) none s))

theorem takeNewSet_eq (i tag : Nat) (k : SetKey) (lead : Tick) (x : CompilerId) {h : Nat}
    (hh : h = holdOf (freeEstimate s x) (predictedArrival s x lead)) : takeNewSet i tag k lead x s =
      if 0 < gapOf s h then notify (.paceGap tag (gapOf s h) x h) (newSetTaken i k x s) else newSetTaken i k x s := by
  subst hh; rfl

theorem base_newSetTaken (i : Nat) (k : SetKey) (x : CompilerId) (s : State) :
    (newSetTaken i k x s).base = (setRoute i (.to x) none s).base := by
  rw [newSetTaken, base_modRouter, base_assign]

theorem setRoute_comp (i : Nat) (r : Route) (reason : Option DivertReason) (s : State) (x : CompilerId) :
    (setRoute i r reason s).comp x = s.comp x := by cases x <;> rfl

theorem assign_of_empty {x : CompilerId} (k : SetKey) (h : (s.comp x).state = .empty) :
    assign x k s = paceTest (releaseTest (modSet k (fun z => { z with assigned := some (x, .current) }) (modComp x (fun c =>
      { c with state := .gathering, current := some k, count := 0, thickness := 0, tags := [] }) s))) := if_pos h

theorem assign_of_busy {x : CompilerId} (k : SetKey) (h : (s.comp x).state ≠ .empty) :
    assign x k s = modSet k (fun z => { z with assigned := some (x, .reserved) })
      (modComp x (fun c => { c with reserved := some k }) s) := if_neg h

theorem zone5Of_eq (x : CompilerId) : zone5Of x = if x = .a then 5 else 6 := by cases x <;> rfl

theorem routeDecision_of_compiler {i : Nat} {r : PathRec} {sh : Sheet} {q : SetRec} {run : Run} {x : CompilerId} {h : Nat}
    (hi : i < s.tracker.path.length) (hq : s.getSet sh.key = some q) (hd : q.state ≠ .diverting) (ha : q.assigned = none)
    (hr : s.getRun sh.key.run = some run) (hc : chooseCompiler s run = some x)
    (hh : h = holdOf (freeEstimate s x) (predictedArrival s x (r.lead.s0.getD s.now))) :
    routeDecision i r sh s = if 0 < gapOf s h then notify (.paceGap r.tag (gapOf s h) x h) (newSetTaken i sh.key x s)
      else newSetTaken i sh.key x s := by
  have hroute := routeAt_setRoute (.to x) none hi
  rw [routeDecision_of_new hq hd ha, newSetChoice_of_some hr hc, takeNewSet_eq i r.tag sh.key _ x hh]
  split
  · refine purgeTestAt_of_other (routeAt_eq_of_base ?_ hroute) (by simp)
    rw [base_notify, base_newSetTaken]
  · exact purgeTestAt_of_other (routeAt_eq_of_base (base_newSetTaken i sh.key x s) hroute) (by simp)

/-! ## The S0 clear event (R44, R78) -/

theorem withinTol_iff {m n : Nat} : withinTol s m n = true ↔ m ≤ n + s.lTol ∧ n ≤ m + s.lTol := by
  rw [withinTol, Bool.and_eq_true, decide_eq_true_iff, decide_eq_true_iff]

/-- The S0 clear time of the record at place `i` is recorded. -/
def clearedS0 (i : Nat) (s : State) : State := modRec i (fun x => { x with clear := { x.clear with s0 := some s.now } }) s

theorem s0ClearRec_of_stray (i : Nat) {r : PathRec} (h : r.sheet = none) : s0ClearRec i r s = moveClearDl i (clearedS0 i s) := by
  rw [s0ClearRec, h]; rfl

section
variable (i : Nat) {r : PathRec} {sh : Sheet} (h : r.sheet = some sh)
include h

theorem s0ClearRec_of_sheet : s0ClearRec i r s =
    if withinTol (clearedS0 i s) (measuredLength s (r.lead.s0.getD s.now) s.now) sh.length = true then
      if r.kind = .tentative then paceTest (moveClearDl i (confirm i r sh (clearedS0 i s))) else moveClearDl i (clearedS0 i s)
    else moveClearDl i (demote i r sh (measuredLength s (r.lead.s0.getD s.now) s.now) (clearedS0 i s)) := by
  rw [s0ClearRec, h]; rfl

variable {m : Nat} (hm : m = measuredLength s (r.lead.s0.getD s.now) s.now)
include hm

theorem s0ClearRec_of_within (h1 : m ≤ sh.length + s.lTol) (h2 : sh.length ≤ m + s.lTol) : s0ClearRec i r s =
    if r.kind = .tentative then paceTest (moveClearDl i (confirm i r sh (clearedS0 i s))) else moveClearDl i (clearedS0 i s) := by
  rw [s0ClearRec_of_sheet i h, ← hm]
  exact if_pos (withinTol_iff.2 ⟨h1, h2⟩)

theorem s0ClearRec_of_outside (ho : sh.length + s.lTol < m ∨ m + s.lTol < sh.length) :
    s0ClearRec i r s = moveClearDl i (demote i r sh m (clearedS0 i s)) := by
  rw [s0ClearRec_of_sheet i h, ← hm]
  refine if_neg fun hw => ?_
  obtain ⟨h1, h2⟩ := withinTol_iff.1 hw
  exact ho.elim (absurd h1 ∘ Nat.not_le.2) (absurd h2 ∘ Nat.not_le.2)

end

/-- Settles O26: the route decision by the set and the chosen compiler, the clear event by the record and its length. -/
theorem s0ClearConfirmsOrDemotes : Obligations.S0ClearConfirmsOrDemotes := by
  refine ⟨fun s => ⟨purgeRouteTest_of_full, purgeRouteTest_of_room⟩, fun i r sh q s hi hq => ⟨fun hd => ?_,
      fun x role hd ha => ?_, fun run hd ha hr => ⟨fun hc => ?_, fun x hc => ⟨_, _, newSetTaken i sh.key x s, rfl, rfl, fun he => ?_,
        fun he => ?_, fun hg => ?_, fun hg => ?_⟩⟩⟩,
    fun s hl ht hn => ?_, fun i r s hl ht hc hr hsh => ?_, fun i r sh m s hl ht hc hr hsh hm => ⟨_, rfl, fun h1 h2 hk => ?_,
      fun h1 h2 hk => ?_, fun ho => ?_⟩⟩
  · rw [routeDecision_of_diverting hq hd, purgeTestAt_of_purge (routeAt_setRoute _ _ hi)]
    rfl
  · rw [routeDecision_of_assigned hq hd ha, purgeTestAt_of_other (routeAt_setRoute _ _ hi) (by simp)]
    rfl
  · have hb : (drainTest sh.key (divertSet sh.key sh.page .noCompiler (setRoute i .purge (some .noCompiler) s))).base =
        (setRoute i .purge (some .noCompiler) s).base := by
      rw [base_drainTest]; rfl
    rw [routeDecision_of_new hq hd ha, newSetChoice_of_none hr hc,
      purgeTestAt_of_purge (routeAt_eq_of_base hb (routeAt_setRoute _ _ hi))]
    rfl
  · rw [newSetTaken, assign_of_empty _ (by rw [setRoute_comp]; exact he)]
    rfl
  · rw [newSetTaken, assign_of_busy _ (by rw [setRoute_comp]; exact he)]
    rfl
  · rw [routeDecision_of_compiler hi hq hd ha hr hc (by rw [predictedArrival, zone5Of_eq]), if_neg (by omega)]
  · rw [routeDecision_of_compiler hi hq hd ha hr hc (by rw [predictedArrival, zone5Of_eq]), if_pos hg]
  · rw [exec_s0Clear_of_run hl ht, clearInRun_of_none (s := sensorRead .s0 false s) _ hn]
    rfl
  · rw [exec_s0Clear_of_run hl ht, clearInRun_of_rec (s := sensorRead .s0 false s) _ hc hr, s0ClearRec_of_stray i hsh]
    rfl
  all_goals rw [exec_s0Clear_of_run hl ht, clearInRun_of_rec (s := sensorRead .s0 false s) _ hc hr]
  · rw [s0ClearRec_of_within (s := sensorRead .s0 false s) i hsh hm h1 h2, if_pos hk]
    rfl
  · rw [s0ClearRec_of_within (s := sensorRead .s0 false s) i hsh hm h1 h2, if_neg hk]
    rfl
  · rw [s0ClearRec_of_outside (s := sensorRead .s0 false s) i hsh hm ho]
    rfl

end Sys2Proof.Machine
end

section
/-! PROOFS. Path events in RUN at S1 to S5B: lead events (R54, R76, R77), the clear deadline (R55), the exits (R75, R78, R82) and
the landing (R100, R101). -/

namespace Sys2Proof.Machine

variable {s t : State}

/-! ## Lead events in RUN (R54, R76, R77) -/

theorem leadInRun_of_none {x : Sensor} (h : s.tracker.path.findIdx? (candidate x) = none) :
    leadInRun x s = jamAtSensor .unexpected x s := by
  rw [leadInRun, h]

theorem leadInRun_of_rec {x : Sensor} {i : Nat} {r : PathRec} (h : s.tracker.path.findIdx? (candidate x) = some i)
    (hr : s.tracker.path[i]? = some r) : leadInRun x s = leadOfRec x i r s := by
  rw [leadInRun, h]
  dsimp only
  rw [hr]

theorem tooEarly_of_deadline {r : PathRec} {d : Deadline} (h : r.leadDl = some d) :
    tooEarly s r = earlier s.now (d.at_ - BitVec.ofNat 32 s.tEarly) := by
  rw [tooEarly, h, Option.any_some]

theorem tooEarly_eq_false {r : PathRec}
    (h : ∀ d : Deadline, r.leadDl = some d → earlier s.now (d.at_ - BitVec.ofNat 32 s.tEarly) = false) : tooEarly s r = false := by
  cases hd : r.leadDl with
  | none => rw [tooEarly, hd]; rfl
  | some d => rw [tooEarly_of_deadline hd, h d hd]

theorem leadOfRec_of_stay (i : Nat) {r : PathRec} (h : r.clear.s0 = none) :
    leadOfRec .s2 i r s = jamOfRecord .stay .s0 r (r.clearDl.map (·.at_)) s := if_pos ⟨rfl, by rw [h]; rfl⟩

section
variable {x : Sensor} (i : Nat) {r : PathRec} (hx : x ≠ .s2 ∨ r.clear.s0 ≠ none)
include hx

theorem leadOfRec_of_early {d : Deadline} (hd : r.leadDl = some d)
    (he : earlier s.now (d.at_ - BitVec.ofNat 32 s.tEarly) = true) :
    leadOfRec x i r s = jamOfRecord .early x r (some d.at_) s := by
  rw [leadOfRec, if_neg fun h => hx.elim (· h.1) (· (Option.isNone_iff_eq_none.1 h.2)), if_pos (by
    rw [tooEarly_of_deadline hd, he]), hd]
  rfl

theorem leadOfRec_of_accept (he : tooEarly s r = false) : leadOfRec x i r s = acceptLead x i r s := by
  rw [leadOfRec, if_neg fun h => hx.elim (· h.1) (· (Option.isNone_iff_eq_none.1 h.2)), if_neg (by simp [he])]

end

theorem acceptLead_of_plain {x : Sensor} (i : Nat) (r : PathRec) (s : State) (h2 : x ≠ .s2) (h3 : x ≠ .s3) :
    acceptLead x i r s =
      setDeadlines i x r.firstCovered.isSome (modRec i (fun q => { q with lead := q.lead.set x (some s.now) }) s) := by
  cases x <;> first | rfl | exact absurd rfl h2 | exact absurd rfl h3

/-- Settles O28: the candidate, then the S0 clear, the earliness and the deadlines. -/
theorem leadEventsMatchOrJam : Obligations.LeadEventsMatchOrJam := by
  refine fun x s hx hl => ⟨sensorRead x true s, rfl, fun hrun hhalt => ⟨?_, ?_⟩, fun ht hn => ?_, fun i r ht hi hr =>
    ⟨fun h2 hc => ?_, fun d h hd he => ?_, fun h2 h3 hd => ?_⟩⟩
  · rw [exec_sensorLead_of_ne_run x hl hrun, leadAtRest_of_ne_halt x (by simpa using hhalt)]
    rfl
  · rw [exec_s0Lead_of_ne_run hl hrun, leadAtRest_of_ne_halt .s0 (by simpa using hhalt)]
  · rw [exec_sensorLead_of_run hx hl ht, leadInRun_of_none (s := sensorRead x true s) hn]
  all_goals rw [exec_sensorLead_of_run hx hl ht, leadInRun_of_rec (s := sensorRead x true s) hi hr]
  · subst h2
    rw [leadOfRec_of_stay i hc]
  · rw [leadOfRec_of_early (s := sensorRead x true s) i h hd he]
  · rw [leadOfRec_of_accept (s := sensorRead x true s) i (.inl h2) (tooEarly_eq_false (s := sensorRead x true s) hd),
      acceptLead_of_plain i r _ h2 h3]
    rfl

/-! ## Set records under updates -/

theorem getSet_of_sets (h : t.sets = s.sets) (k : SetKey) : t.getSet k = s.getSet k := by
  rw [State.getSet, h]; rfl

theorem getSet_modSet {k : SetKey} {f : SetRec → SetRec} (hf : ∀ q, (f q).key = q.key) (s : State) :
    (modSet k f s).getSet k = (s.getSet k).map f := by
  rw [State.getSet, State.getSet, modSet]
  dsimp only
  induction s.sets with
  | nil => rfl
  | cons o os ih =>
    rw [List.map_cons, List.findSome?_cons, List.findSome?_cons, ih]
    cases o with
    | none => rfl
    | some q =>
      by_cases h : q.key = k
      · simp [h, hf q]
      · simp [h]

/-! ## The close condition test (R101) -/

theorem closeTest_sets (x : CompilerId) (s : State) : (closeTest x s).sets = s.sets := by
  simp only [closeTest]
  split
  · cases x <;> rfl
  · rfl

theorem any_closeDue {x : CompilerId} {k : SetKey} {q : SetRec} (hc : (s.comp x).current = some k) (hq : s.getSet k = some q) :
    ((s.comp x).current.bind s.getSet).any (closeDue s x) = closeDue s x q := by
  rw [hc, Option.bind_some, hq, Option.any_some]

theorem closeDue_iff {x : CompilerId} {q : SetRec} : closeDue s x q = true ↔ (s.comp x).count = q.pages ∨
    (q.aborted = true ∧ q.state ≠ .diverting ∧ 0 < (s.comp x).count ∧ s.hasConfirmed q.key = false) := by
  simp only [closeDue, Bool.or_eq_true, beq_iff_eq, Bool.and_eq_true, bne_iff_ne, decide_eq_true_iff, Bool.not_eq_true', and_assoc]

theorem hasConfirmed_eq_false_iff {k : SetKey} :
    s.hasConfirmed k = false ↔ ∀ r ∈ s.tracker.path, r.kind = .confirmed → r.key ≠ some k := by
  rw [← Bool.not_eq_true, hasConfirmed_iff]
  simp only [not_exists, not_and, ne_eq]

/-! ## The landing (R100) -/

/-- A sheet on compiler X's stack, before the tests. -/
def landed (x : CompilerId) (tag : Nat) (sh : Sheet) (s : State) : State :=
  modSet sh.key (fun q => { q with inCompiler := q.inCompiler + 1 }) (modComp x (fun c =>
    { c with
      count := c.count + 1, tags := c.tags ++ [tag], thickness := min 8000 (c.thickness + s.mediaThickness sh.media),
      paper := true, lastLanding := s.now }) s)

theorem land_eq (x : CompilerId) (tag : Nat) (sh : Sheet) (s : State) : land x tag sh s =
    if ((closeTest x (landed x tag sh s)).getSet sh.key).any (fun q => sh.page == q.pages) = true then
      paceTest (closeTest x (landed x tag sh s)) else closeTest x (landed x tag sh s) := rfl

/-- The last page is told by the set's record as it was. -/
theorem landed_lastPage_iff (x : CompilerId) (tag : Nat) (sh : Sheet) (s : State) :
    ((closeTest x (landed x tag sh s)).getSet sh.key).any (fun q => sh.page == q.pages) = true ↔
      ∃ q, s.getSet sh.key = some q ∧ q.pages = sh.page := by
  have hget : (closeTest x (landed x tag sh s)).getSet sh.key =
      (s.getSet sh.key).map (fun q => { q with inCompiler := q.inCompiler + 1 }) := by
    rw [getSet_of_sets (closeTest_sets x _), landed]
    refine (getSet_modSet ?_ _).trans (congrArg _ (getSet_of_sets (by cases x <;> rfl) _))
    exact fun _ => rfl
  rw [hget, Option.any_map, Option.any_eq_true]
  exact exists_congr fun q => and_congr_right fun _ => beq_iff_eq.trans eq_comm

/-! ## Clear deadlines (R55) -/

section
variable {i : Nat} {r : PathRec} (hr : s.tracker.path[i]? = some r)
include hr

theorem moveClearDl_of_none (h : movedClearDl s r = none) : moveClearDl i s = modRec i (fun q => { q with clearDl := none }) s := by
  rw [moveClearDl, hr]
  dsimp only
  rw [h]

theorem moveClearDl_of_some {d : Deadline} (h : movedClearDl s r = some d) : moveClearDl i s =
    if reached s.now d.at_ = true then
      jamOfRecord .stay d.sensor r (some d.at_) (modRec i (fun q => { q with clearDl := some d }) s)
    else modRec i (fun q => { q with clearDl := some d }) s := by
  rw [moveClearDl, hr]
  dsimp only
  rw [h]
  rfl

end

theorem covers_eq_false_iff (r : PathRec) (x : Sensor) :
    ((r.lead.get x).isSome && (r.clear.get x).isNone) = false ↔ r.lead.get x = none ∨ r.clear.get x ≠ none := by
  rw [Bool.and_eq_false_iff, Option.isSome_eq_false_iff, Option.isNone_eq_false_iff, Option.isNone_iff_eq_none,
    Option.isSome_iff_ne_none]

theorem firstCovered_of_none {r : PathRec} (h : ∀ x ∈ r.route.sensors, r.lead.get x = none ∨ r.clear.get x ≠ none) :
    r.firstCovered = none :=
  List.find?_eq_none.2 fun x hx => by rw [(covers_eq_false_iff r x).2 (h x hx)]; simp

theorem firstCovered_of_prefix {r : PathRec} {x : Sensor} {t : Tick} {before : List Sensor} (hp : before ++ [x] <+: r.route.sensors)
    (hb : ∀ y ∈ before, r.lead.get y = none ∨ r.clear.get y ≠ none) (hl : r.lead.get x = some t) (hc : r.clear.get x = none) :
    r.firstCovered = some x := by
  obtain ⟨rest, hs⟩ := hp
  refine List.find?_eq_some_iff_append.2 ⟨by rw [hl, hc]; rfl, before, rest, by rw [← hs, List.append_assoc]; rfl, fun y hy => ?_⟩
  rw [(covers_eq_false_iff r y).2 (hb y hy)]; rfl

theorem movedClearDl_of_idle {r : PathRec}
    (h : r.parked = true ∨ ∀ x ∈ r.route.sensors, r.lead.get x = none ∨ r.clear.get x ≠ none) : movedClearDl s r = none := by
  rw [movedClearDl]
  split
  · rfl
  · rw [currentClearDl, firstCovered_of_none (h.resolve_left ‹_›)]; rfl

theorem movedClearDl_of_covered {r : PathRec} {x : Sensor} {t : Tick} (hp : r.parked = false) (hf : r.firstCovered = some x)
    (hl : r.lead.get x = some t) : movedClearDl s r = some (clearDeadlineAt s r x t) := by
  rw [movedClearDl, if_neg (by simp [hp]), currentClearDl, hf, Option.bind_some, hl]; rfl

/-! ## The exits (R75, R82) -/

theorem exitLanding_of_sheet (x : CompilerId) (i : Nat) {r : PathRec} {sh : Sheet} (h : r.sheet = some sh) :
    exitLanding x i r s = idleTest (land x r.tag sh (dropRec i s)) := by
  rw [exitLanding, h]

/-- A record gone to the tray, with the count risen. -/
def purged (i : Nat) (s : State) : State := modTracker (fun t => { t with purgeCount := t.purgeCount + 1 }) (dropRec i s)

theorem countPurged_of_room {i : Nat} (h : s.tracker.purgeCount + 1 ≠ s.purgeCapacity) :
    countPurged (dropRec i s) = purged i s := if_neg h

theorem countPurged_of_full {i : Nat} (h : s.tracker.purgeCount + 1 = s.purgeCapacity) : countPurged (dropRec i s) =
    paceTest (notify (.purgeFull (s.tracker.purgeCount + 1) s.purgeCapacity false) (purged i s)) := if_pos h

theorem countPurged_latched (i : Nat) (s : State) : (countPurged (dropRec i s)).latched = s.latched := by
  by_cases h : s.tracker.purgeCount + 1 = s.purgeCapacity
  · rw [countPurged_of_full h, paceTest_latched, notify_latched]; rfl
  · rw [countPurged_of_room h]; rfl

theorem exitPurge_of_stray (i : Nat) {r : PathRec} (h : r.sheet = none) :
    exitPurge i r s = idleTest (drainTests (countPurged (dropRec i s))) := by
  simp only [exitPurge, PathRec.key, h, Option.map_none]

theorem exitPurge_of_unconfirmed (i : Nat) {r : PathRec} {sh : Sheet} (h : r.sheet = some sh) (hk : r.kind ≠ .confirmed) :
    exitPurge i r s = idleTest (closeTestOf sh.key (drainTests (countPurged (dropRec i s)))) := by
  simp only [exitPurge, PathRec.key, h, Option.map_some, if_neg hk]

theorem exitPurge_of_confirmed (i : Nat) {r : PathRec} {sh : Sheet} (h : r.sheet = some sh) (hk : r.kind = .confirmed) :
    exitPurge i r s =
      idleTest (closeTestOf sh.key (drainTests (purgeConfirmed sh (countPurged (dropRec i s))))) := by
  simp only [exitPurge, PathRec.key, h, Option.map_some, if_pos hk]

theorem purgeConfirmed_countPurged (i : Nat) (sh : Sheet) (s : State) :
    purgeConfirmed sh (countPurged (dropRec i s)) = removalTest sh.key (modSet sh.key (fun q =>
      { q with confirmed := q.confirmed - 1, thickness := q.thickness - s.mediaThickness sh.media }) (countPurged (dropRec i s))) := by
  have hm : (countPurged (dropRec i s)).mediaThickness sh.media = s.mediaThickness sh.media := by
    rw [State.mediaThickness, countPurged_latched]; rfl
  rw [← hm]; rfl

/-! ## Clear events outside RUN (R64, R65, R71) -/

theorem clearEvent_of_resting (x : Sensor) (f : Nat → PathRec → State → State)
    (ht : s.tracker.transport = .off ∨ s.tracker.transport = .spinup ∨ s.tracker.transport = .recover) :
    clearEvent x f s = setReading x false s := by
  rcases ht with ht | ht | ht <;> simp only [clearEvent, setReading_transport, ht]

section
variable (hl : s.loading = false)
  (ht : s.tracker.transport = .off ∨ s.tracker.transport = .spinup ∨ s.tracker.transport = .recover)
include hl ht

theorem exec_s0Clear_of_resting : exec .s0Clear s = .next (sensorRead .s0 false s) := by
  rw [exec_s0Clear hl, clearEvent_of_resting .s0 _ (by simpa using ht)]
  rfl

theorem exec_sensorClear_of_resting (x : Sensor) : exec (.sensorClear x) s = .next (sensorRead x false s) := by
  by_cases hx : x = .s0
  · subst hx
    exact exec_s0Clear_of_resting hl ht
  · rw [exec_sensorClear hl x hx, clearEvent_of_resting x _ (by simpa using ht)]
    rfl

end

/-- Settles O29: a clear event by the record's place on its route, and the three tests it leads to. -/
theorem clearEventsMoveOrLeave : Obligations.ClearEventsMoveOrLeave := by
  refine ⟨fun x tag sh s => ⟨landed x tag sh s, _, rfl, rfl, fun h => ?_, fun h => ?_⟩, fun x s => ⟨closeTest_of_wrong_state,
      fun k q hc hq => ⟨fun hs ht hf hd => ?_, fun hne h => ?_⟩⟩,
    fun x s hl ht => ⟨sensorRead x false s, rfl, fun hn hx => ?_, fun i r hc hr => ⟨fun hx => ?_, fun sh hx hsh => ?_,
      fun sh hx hsh => ?_, fun hx => ⟨purged i (sensorRead x false s), countPurged (dropRec i (sensorRead x false s)), rfl,
        fun hne => ?_, fun he => ?_, fun hsh => ?_, fun sh hsh => ⟨fun hk => ?_, fun hk => ?_⟩⟩⟩⟩,
    fun x s hl ht => ⟨?_, ?_⟩,
    fun i r s hr => ⟨fun h => moveClearDl_of_none hr (movedClearDl_of_idle h), ?_⟩⟩
  · rw [land_eq, if_pos ((landed_lastPage_iff x tag sh s).2 h)]
  · rw [land_eq, if_neg]
    rw [landed_lastPage_iff]
    rintro ⟨q, hq, hp⟩
    exact h q hq hp
  · refine closeTest_of_due hs ht hf ?_
    rw [any_closeDue hc hq, closeDue_iff, hasConfirmed_eq_false_iff, getSet_key hq]
    exact hd
  · refine closeTest_of_not_due ?_
    rw [any_closeDue hc hq, ← Bool.not_eq_true, closeDue_iff, getSet_key hq, or_iff_right hne]
    rintro ⟨ha, hd, hpos, hconf⟩
    rcases h with h | h | h | h
    · simp [h] at ha
    · exact hd h
    · omega
    · simp [hasConfirmed_iff.2 h] at hconf
  · rw [exec_sensorClear_of_run hx hl ht, clearInRun_of_none (s := sensorRead x false s) _ hn]
  · have hx0 : x ≠ .s0 := by rcases hx with rfl | rfl | rfl | rfl <;> decide
    rw [exec_sensorClear_of_run hx0 hl ht, clearInRun_of_rec (s := sensorRead x false s) _ hc hr]
    rcases hx with rfl | rfl | rfl | rfl <;> rfl
  · rw [exec_sensorClear_of_run (by rw [hx]; decide) hl ht, clearInRun_of_rec (s := sensorRead x false s) _ hc hr]
    subst hx
    exact congrArg Host.Outcome.next (exitLanding_of_sheet .a i hsh)
  · rw [exec_sensorClear_of_run (by rw [hx]; decide) hl ht, clearInRun_of_rec (s := sensorRead x false s) _ hc hr]
    subst hx
    exact congrArg Host.Outcome.next (exitLanding_of_sheet .b i hsh)
  · exact countPurged_of_room (s := sensorRead x false s) hne
  · exact countPurged_of_full (s := sensorRead x false s) he
  · rw [exec_sensorClear_of_run (by rw [hx]; decide) hl ht, clearInRun_of_rec (s := sensorRead x false s) _ hc hr]
    subst hx
    exact congrArg Host.Outcome.next (exitPurge_of_stray i hsh)
  · rw [exec_sensorClear_of_run (by rw [hx]; decide) hl ht, clearInRun_of_rec (s := sensorRead x false s) _ hc hr]
    subst hx
    exact congrArg Host.Outcome.next (exitPurge_of_unconfirmed i hsh hk)
  · rw [exec_sensorClear_of_run (by rw [hx]; decide) hl ht, clearInRun_of_rec (s := sensorRead x false s) _ hc hr]
    subst hx
    refine congrArg Host.Outcome.next ((exitPurge_of_confirmed i hsh hk).trans ?_)
    rw [purgeConfirmed_countPurged]
    rfl
  · exact exec_sensorClear_of_resting hl ht x
  · exact exec_s0Clear_of_resting hl ht
  · intro x t d before hp hpre hb hlead hclear hd
    subst hd
    have hmoved := movedClearDl_of_covered (s := s) hp (firstCovered_of_prefix hpre hb hlead hclear) hlead
    rw [moveClearDl_of_some hr hmoved]
    exact ⟨fun h => if_neg (by simpa [clearDeadlineAt] using h), fun h => if_pos h⟩

end Sys2Proof.Machine
end

section
/-! PROOFS. The diverter at S2 and the gate at S3 (R89, R93, R94), the drain test (R92) and the cancellation test (R87). -/

namespace Sys2Proof.Machine

variable {s t : State}

/-! ## The record's compiler and its last page (R88, R93) -/

theorem compilerReady_iff {r : PathRec} : compilerReady s r = true ↔ ∃ (sh : Sheet) (x : CompilerId),
    r.sheet = some sh ∧ r.route = .to x ∧ (s.comp x).current = some sh.key := by
  rcases hroute : r.route with _ | _ | x
  · simp [compilerReady, hroute]
  · simp [compilerReady, hroute]
  · cases hsheet : r.sheet <;> simp [compilerReady, PathRec.key, hroute, hsheet]

theorem lastOfCurrent_iff {r : PathRec} : lastOfCurrent s r = true ↔ ∃ (sh : Sheet) (q : SetRec) (x : CompilerId),
    r.sheet = some sh ∧ s.getSet sh.key = some q ∧ sh.page = q.pages ∧ q.assigned = some (x, .current) := by
  simp only [lastOfCurrent, Option.any_eq_true, Bool.and_eq_true, beq_iff_eq, Prod.exists]
  constructor
  · rintro ⟨sh, hsh, q, hq, hp, x, role, ha, rfl⟩
    exact ⟨sh, q, x, hsh, hq, hp, ha⟩
  · rintro ⟨sh, q, x, hsh, hq, hp, ha⟩
    exact ⟨sh, hsh, q, hq, hp, x, _, ha, rfl⟩

theorem lastOfCurrent_of_sets (h : t.sets = s.sets) (r : PathRec) : lastOfCurrent t r = lastOfCurrent s r := by
  unfold lastOfCurrent
  simp only [getSet_of_sets h]

theorem isDiverting_of_sets (h : t.sets = s.sets) : t.isDiverting = s.isDiverting := by
  funext k
  rw [State.isDiverting, getSet_of_sets h]; rfl

theorem releaseTest_sets (s : State) : (releaseTest s).sets = s.sets := by
  unfold releaseTest
  split
  · rfl
  · split <;> rfl

/-! ## The path table under a change of one record that keeps what is counted -/

theorem buffer_eq_nil_iff : s.buffer = [] ↔ ∀ r ∈ s.tracker.path, r.parked = false := by
  simp only [State.buffer, List.filter_eq_nil_iff, Bool.not_eq_true]

theorem buffer_modRec_eq_nil_iff (i : Nat) {f : PathRec → PathRec} (hf : ∀ r, (f r).parked = r.parked) (s : State) :
    (modRec i f s).buffer = [] ↔ s.buffer = [] := by
  have hflags (u : State) : u.buffer = [] ↔ ∀ (j : Nat), ∀ r ∈ u.tracker.path[j]?, PathRec.parked r = false := by
    rw [buffer_eq_nil_iff]
    exact ⟨fun h j r hj => h r (List.mem_of_getElem? hj), fun h r hr => (List.mem_iff_getElem?.1 hr).elim fun j hj => h j r hj⟩
  have hrec (j : Nat) (r : PathRec) : (if i = j then f r else r).parked = r.parked := by split <;> simp [hf]
  rw [hflags, hflags]
  refine forall_congr' fun j => ?_
  show (∀ r ∈ (s.tracker.path.modify i f)[j]?, _) ↔ _
  rw [List.getElem?_modify]
  cases s.tracker.path[j]? with
  | none => simp
  | some r => simp [hrec]

theorem overrunCount_modRec (i : Nat) (f : PathRec → PathRec) (s : State) : overrunCount (modRec i f s) i = overrunCount s i := by
  have herase : (s.tracker.path.modify i f).eraseIdx i = s.tracker.path.eraseIdx i := by
    refine List.ext_getElem? fun j => ?_
    simp only [List.getElem?_eraseIdx, List.getElem?_modify]
    split <;> split <;> first | rfl | omega | simp
  exact congrArg (List.countP PathRec.betweenS2S4) herase

/-! ## The gate (R93, R94) -/

theorem gatePasses_iff {r : PathRec} : gatePasses s r = true ↔ s.buffer = [] ∧ compilerReady s r = true := by
  rw [gatePasses, Bool.and_eq_true, List.isEmpty_iff]

theorem leadAtS3_of_pass {i : Nat} {r : PathRec} (c : Bool) (hb : s.buffer = []) (hc : compilerReady s r = true) :
    leadAtS3 i r c s = modRouter (fun q => { q with gate := .pass }) (setDeadlines i .s3 c s) :=
  if_pos (gatePasses_iff.2 ⟨hb, hc⟩)

theorem leadAtS3_of_park {i : Nat} {r : PathRec} (c : Bool) (h : s.buffer ≠ [] ∨ compilerReady s r = false) :
    leadAtS3 i r c s = if lastOfCurrent s r = true then paceTest (releaseTest (park i s)) else releaseTest (park i s) := by
  have hno : ¬ gatePasses s r = true := by
    rw [gatePasses_iff]
    rintro ⟨hb, hc⟩
    rcases h with h | h
    · exact h hb
    · simp [hc] at h
  have hlast : lastOfCurrent (releaseTest (park i s)) r = lastOfCurrent s r := lastOfCurrent_of_sets (releaseTest_sets _) r
  rw [← hlast]
  exact if_neg hno

/-! ## The diverter (R89 to R91) -/

theorem diverterReason_of_other {i : Nat} {r : PathRec} (h : r.route.isCompiler = false) : diverterReason s i r = none :=
  if_neg (by simp [h])

section
variable {i : Nat} {r : PathRec} (hc : r.route.isCompiler = true)
include hc

theorem diverterReason_of_diverting (hd : r.key.any s.isDiverting = true) : diverterReason s i r = some .setDiverted :=
  (if_pos hc).trans (if_pos hd)

variable (hd : r.key.any s.isDiverting = false)
include hd

theorem diverterReason_of_overrun (ho : 3 ≤ overrunCount s i) : diverterReason s i r = some .overrun :=
  (if_pos hc).trans ((if_neg (by simp [hd])).trans (if_pos ho))

theorem diverterReason_of_room (ho : overrunCount s i < 3) : diverterReason s i r = none :=
  (if_pos hc).trans ((if_neg (by simp [hd])).trans (if_neg (Nat.not_le.2 ho)))

end

section
variable {i : Nat} {r : PathRec}

theorem diverterFor_eq (r : Route) : diverterFor r = if r = .purge then .purge else .feed := by cases r <;> rfl

theorem diverter_of_none (h : diverterReason s i r = none) :
    diverter i r s = modRouter (fun q => { q with diverter := if r.route = .purge then .purge else .feed }) s := by
  simp only [diverter, h, reportOverrun, diverterFor_eq, Option.isSome_none, Bool.false_eq_true, if_false]

theorem diverter_of_diverting (h : diverterReason s i r = some .setDiverted) : diverter i r s =
    purgeRouteTest (modRouter (fun q => { q with diverter := .purge }) (setRoute i .purge (some .setDiverted) s)) := by
  simp only [diverter, h, reportOverrun, diverterFor, Option.isSome_some, if_true]

theorem diverter_of_overrun {sh : Sheet} (h : diverterReason s i r = some .overrun) (hs : r.sheet = some sh) :
    diverter i r s = purgeRouteTest (modRouter (fun q => { q with diverter := .purge })
      (setRoute i .purge (some .overrun) (divertSet sh.key sh.page .overrun s))) := by
  simp only [diverter, h, hs, reportOverrun, diverterFor, Option.isSome_some, if_true]

end

/-! ## After the diverter (R87, R88, R89) -/

/-- The drain test of a record's set, if it has one. -/
def drainTestOf (r : PathRec) (s : State) : State := r.sheet.elim s (fun sh => drainTest sh.key s)

theorem drainTestOf_of_stray {r : PathRec} (h : r.sheet = none) (s : State) : drainTestOf r s = s := by
  rw [drainTestOf, h]; rfl

theorem drainTestOf_of_sheet {r : PathRec} {sh : Sheet} (h : r.sheet = some sh) (s : State) :
    drainTestOf r s = drainTest sh.key s := by
  rw [drainTestOf, h]; rfl

/-- The record's set has entered DIVERTING as a compiler's current set since `s`. -/
def enteredSince (s : State) (r : PathRec) (w : State) : Bool :=
  !r.key.any s.isDiverting && (r.key.bind w.getSet).any (fun q =>
    q.state == .diverting && q.assigned.any (fun a => a.2 == .current))

theorem enteredSince_iff {r : PathRec} {w : State} : enteredSince s r w = true ↔
    ∃ (sh : Sheet) (q : SetRec) (x : CompilerId), r.sheet = some sh ∧ s.isDiverting sh.key = false ∧
      w.getSet sh.key = some q ∧ q.state = .diverting ∧ q.assigned = some (x, .current) := by
  cases h : r.sheet with
  | none => simp [enteredSince, PathRec.key, h]
  | some sh =>
    simp only [enteredSince, PathRec.key, h, Option.map_some, Option.any_some, Option.bind_some, Option.any_eq_true,
      Bool.and_eq_true, Bool.not_eq_true', beq_iff_eq, Prod.exists, Option.some.injEq]
    constructor
    · rintro ⟨hd, q, hq, hs, x, role, ha, rfl⟩
      exact ⟨sh, q, x, rfl, hd, hq, hs, ha⟩
    · rintro ⟨sh', q, x, rfl, hd, hq, hs, ha⟩
      exact ⟨hd, q, hq, hs, x, _, ha, rfl⟩

/-- The cancellation tests of both compilers, when the record's set has entered DIVERTING. -/
def cancelEntered (entered : Bool) (s : State) : State :=
  if entered then cancelTest true .b (cancelTest true .a s) else s

theorem afterDiverter_eq (r : PathRec) (entered last : Bool) (s : State) : afterDiverter r entered last s =
    if last = true then paceTest (cancelEntered entered (drainTestOf r s)) else cancelEntered entered (drainTestOf r s) := by
  cases h : r.sheet with
  | none => simp only [afterDiverter, PathRec.key, h, Option.map_none, cancelEntered, drainTestOf, Option.elim_none]
  | some sh => simp only [afterDiverter, PathRec.key, h, Option.map_some, cancelEntered, drainTestOf, Option.elim_some]

theorem leadAtS2_eq (i : Nat) (r : PathRec) (c : Bool) (s : State) : leadAtS2 i r c s =
    if lastOfCurrent s r = true then
      paceTest (cancelEntered (enteredSince s r (setDeadlines i .s2 c (diverter i r s)))
        (drainTestOf r (setDeadlines i .s2 c (diverter i r s))))
    else cancelEntered (enteredSince s r (setDeadlines i .s2 c (diverter i r s)))
      (drainTestOf r (setDeadlines i .s2 c (diverter i r s))) :=
  afterDiverter_eq r _ _ _

/-! ## The drain test (R92) -/

theorem drained_iff {k : SetKey} : drained s k = true ↔ (∀ e ∈ s.queue, e.sheet.key = k → e.void = true) ∧
    ∀ r ∈ s.tracker.path, r.key = some k → (r.kind = .tentative ∨ r.kind = .confirmed → r.lead.s2 ≠ none) ∧
      (r.kind = .confirmed → r.route ≠ .purge) := by
  simp only [drained, Bool.and_eq_true, Bool.not_eq_true', List.any_eq_false, Bool.or_eq_true, beq_iff_eq, PathRec.of_iff,
    Option.isNone_iff_eq_none, not_and, not_or, Bool.not_eq_false, ne_eq]

theorem drainTest_of_not_drained {k : SetKey} {q : SetRec} (hq : s.getSet k = some q)
    (h : ¬ (q.state = .diverting ∧ drained s k = true)) : drainTest k s = s := by
  rw [drainTest, hq]
  exact if_neg h

theorem drainTest_of_drained {k : SetKey} {q : SetRec} (hq : s.getSet k = some q) (hs : q.state = .diverting)
    (hd : drained s k = true) : drainTest k s = drainEnd q s := by
  rw [drainTest, hq]
  exact if_pos ⟨hs, hd⟩

theorem drainEnd_of_aborted {q : SetRec} (h : q.aborted = true) : drainEnd q s =
    closeTestOf q.key (removalTest q.key (modSet q.key (fun x => { x with state := .fed, divertCause := none }) s)) := if_pos h

theorem drainEnd_of_live {q : SetRec} {page : Nat} {cause : DivertCause} (h : q.aborted = false) (hp : q.divertPage = some page)
    (hc : q.divertCause = some cause) : drainEnd q s =
      closeTestOf q.key (notify (.setDiverted q.key page cause (q.assigned.map (·.1)) q.inCompiler)
        (modSet q.key (fun x => { x with state := .recovering, next := page, announced := page - 1, divertCause := none }) s)) := by
  simp only [drainEnd, h, hp, hc, Option.getD_some, Bool.false_eq_true, if_false]

/-! ## The cancellation test (R87) -/

theorem stuck_iff {q : SetRec} : (q.state == .diverting || q.state == .recovering) = true ↔
    q.state = .diverting ∨ q.state = .recovering := by
  rw [Bool.or_eq_true, beq_iff_eq, beq_iff_eq]

theorem cancelTest_of_unreserved {x : CompilerId} (b : Bool) (h : (s.comp x).reserved = none) : cancelTest b x s = s := by
  rw [cancelTest, h]

theorem cancelTest_of_free {x : CompilerId} (b : Bool) (h : ∀ (k : SetKey) (q : SetRec), (s.comp x).current = some k →
    s.getSet k = some q → q.state ≠ .diverting ∧ q.state ≠ .recovering) : cancelTest b x s = s := by
  simp only [cancelTest]
  split
  · refine if_neg fun hs => ?_
    obtain ⟨q, hq, hst⟩ := Option.any_eq_true _ _ |>.1 hs
    obtain ⟨k, hk, hkq⟩ := Option.bind_eq_some_iff.1 hq
    obtain ⟨hnd, hnr⟩ := h k q hk hkq
    exact (stuck_iff.1 hst).elim hnd hnr
  · rfl

theorem cancelTest_of_stuck {x : CompilerId} (b : Bool) {y k : SetKey} {q : SetRec} (hy : (s.comp x).reserved = some y)
    (hk : (s.comp x).current = some k) (hq : s.getSet k = some q) (hs : q.state = .diverting ∨ q.state = .recovering) :
    cancelTest b x s = cancelReservation b x y s := by
  rw [cancelTest, hy]
  refine if_pos ?_
  rw [hk, Option.bind_some, hq, Option.any_some]
  exact stuck_iff.2 hs

theorem modSet_modSet {k : SetKey} {f g : SetRec → SetRec} (hg : ∀ q, (g q).key = q.key) (s : State) :
    modSet k f (modSet k g s) = modSet k (fun q => f (g q)) s := by
  simp only [modSet, List.map_map]
  congr 1
  refine List.map_congr_left fun o _ => ?_
  cases o with
  | none => rfl
  | some q =>
    by_cases h : q.key = k
    · simp [h, hg q]
    · simp [h]

theorem giveUp_eq (x : CompilerId) (k : SetKey) (s : State) : giveUp x k s =
    modSet k (fun z => if z.state = .announcing ∨ z.state = .fed then
        { z with assigned := none, state := .diverting, divertPage := some 1, divertCause := some .noCompiler }
      else { z with assigned := none }) (modComp x (fun c => { c with reserved := none }) s) := by
  have hg : ∀ q : SetRec, { q with assigned := none }.key = q.key := fun _ => rfl
  rw [giveUp, divertSet, modSet_modSet hg]

/-- Settles O37: the gate at S3, the diverter and what follows it at S2, the drain test and the cancellation test. -/
theorem diverterAndGateDecide : Obligations.DiverterAndGateDecide := by
  refine ⟨fun i r s hl ht hi hr he => ⟨_, _, rfl, rfl, fun hb hc => ?_, fun h => ?_⟩,
    fun r s => ⟨lastOfCurrent_iff, compilerReady_iff⟩, fun i r s hl ht hi hr he hcl => ?_,
    fun k q s hq => ⟨fun h => drainTest_of_not_drained hq ?_, fun hs hqueue hpath => ?_⟩,
    fun b x s => ⟨fun h => h.elim (cancelTest_of_unreserved b) (cancelTest_of_free b), fun y k q hy hk hq hs =>
      ⟨_, giveUp_eq x y s, cancelTest_of_stuck b hy hk hq hs⟩⟩⟩
  · rw [exec_sensorLead_of_run (by decide) hl ht, leadInRun_of_rec (s := sensorRead .s3 true s) hi hr,
      leadOfRec_of_accept (s := sensorRead .s3 true s) i (.inl (by decide)) he]
    refine congrArg Host.Outcome.next (leadAtS3_of_pass _ ?_ hc)
    refine (buffer_modRec_eq_nil_iff i ?_ (sensorRead .s3 true s)).2 hb
    exact fun _ => rfl
  · rw [exec_sensorLead_of_run (by decide) hl ht, leadInRun_of_rec (s := sensorRead .s3 true s) hi hr,
      leadOfRec_of_accept (s := sensorRead .s3 true s) i (.inl (by decide)) he]
    refine congrArg Host.Outcome.next (leadAtS3_of_park _ (h.imp_left fun hb => ?_))
    refine (buffer_modRec_eq_nil_iff i ?_ (sensorRead .s3 true s)).not.2 hb
    exact fun _ => rfl
  · rw [exec_sensorLead_of_run (by decide) hl ht, leadInRun_of_rec (s := sensorRead .s2 true s) hi hr,
      leadOfRec_of_accept (s := sensorRead .s2 true s) i (.inr hcl) he]
    obtain ⟨u, hu⟩ : ∃ u, u = modRec i (fun q => { q with lead := q.lead.set .s2 (some s.now) }) (sensorRead .s2 true s) := ⟨_, rfl⟩
    obtain ⟨p, hp⟩ : ∃ p, p = { r with lead := r.lead.set .s2 (some s.now) } := ⟨_, rfl⟩
    have hsets : u.sets = s.sets := by rw [hu]; rfl
    have hcount : overrunCount u i = overrunCount s i := by rw [hu, overrunCount_modRec]; rfl
    have hroute : p.route = r.route := by rw [hp]
    have hsheet : p.sheet = r.sheet := by rw [hp]
    have hkey : p.key.any u.isDiverting = r.key.any s.isDiverting := by
      rw [PathRec.key, hsheet, isDiverting_of_sets hsets]; rfl
    have hlast : lastOfCurrent u p = lastOfCurrent s r := by rw [lastOfCurrent_of_sets hsets, lastOfCurrent, hsheet]; rfl
    obtain ⟨w, hw⟩ : ∃ w, w = setDeadlines i .s2 r.firstCovered.isSome (diverter i p u) := ⟨_, rfl⟩
    refine ⟨u, diverter i p u, w, drainTestOf p w, cancelEntered (enteredSince u p w) (drainTestOf p w), hu, fun h => ?_, fun hc hd => ?_,
      fun sh hc hd ho hsh => ?_, hw, fun h => drainTestOf_of_stray (hsheet.trans h) _,
      fun sh h => drainTestOf_of_sheet (hsheet.trans h) _, fun entered hent => ?_, ?_⟩
    rotate_left 4
    · rw [hw, ← hlast, ← leadAtS2_eq, hu, hp]
      rfl
    · have hreason : diverterReason u i p = none := by
        rcases h with h | ⟨hd, ho⟩
        · exact diverterReason_of_other (by rw [hroute]; exact h)
        · cases hc : p.route.isCompiler with
          | false => exact diverterReason_of_other hc
          | true => exact diverterReason_of_room hc (hkey.trans hd) (hcount ▸ ho)
      rw [diverter_of_none hreason, hroute]
    · exact diverter_of_diverting (diverterReason_of_diverting (hroute ▸ hc) (hkey.trans hd))
    · exact diverter_of_overrun (diverterReason_of_overrun (hroute ▸ hc) (hkey.trans hd) (hcount ▸ ho)) (hsheet.trans hsh)
    · have hiff : enteredSince u p w = true ↔ entered := by
        rw [enteredSince_iff, hent, hsheet, isDiverting_of_sets hsets]
      exact ⟨fun h => if_pos (hiff.2 h), fun h => if_neg fun he => h (hiff.1 he)⟩
  · rintro ⟨hs, hd⟩
    obtain ⟨hqueue, hpath⟩ := drained_iff.1 hd
    rcases h with h | ⟨e, he, hk, hv⟩ | ⟨r, hr, hk, ⟨hkind, hlead⟩ | ⟨hkind, hroute⟩⟩
    · exact h hs
    · simp [hqueue e he hk] at hv
    · exact (hpath r hr hk).1 hkind hlead
    · exact (hpath r hr hk).2 hkind hroute
  · have hdrain := drainTest_of_drained hq hs (drained_iff.2 ⟨hqueue, hpath⟩)
    rw [hdrain]
    refine ⟨fun ha => ?_, fun page cause ha hp hc => ?_⟩
    · rw [drainEnd_of_aborted ha, getSet_key hq]
    · rw [drainEnd_of_live ha hp hc, getSet_key hq]

end Sys2Proof.Machine
end

section
/-! PROOFS. A halt (R67) and its stock-taking (R143 to R150). -/

namespace Sys2Proof.Machine

variable {s : State}

/-! ## What stock-taking looks at (R143 to R146) -/

theorem Compiler.holdsStack_iff {c : Compiler} :
    c.holdsStack = true ↔ c.state = .gathering ∨ c.state = .closing ∨ c.state = .ready := by
  simp only [Compiler.holdsStack, Bool.or_eq_true, beq_iff_eq, or_assoc]

theorem HaltRecord.jamAt_iff {h : HaltRecord} {x : CompilerId} :
    h.jamAt x = true ↔ ∃ k : JamKind, h.jam = some (k, s5Of x) := by
  simp only [HaltRecord.jamAt, Option.any_eq_true, beq_iff_eq, Prod.exists]
  exact ⟨fun ⟨k, _, hj, he⟩ => ⟨k, he ▸ hj⟩, fun ⟨k, hj⟩ => ⟨k, _, hj, rfl⟩⟩

theorem wholeSetAt_iff {x : CompilerId} : wholeSetAt s x = true ↔
    ∃ (k : SetKey) (r : Run), (s.comp x).current = some k ∧ s.getRun k.run = some r ∧ r.policy = .wholeSet := by
  simp only [wholeSetAt, State.runHas, Option.any_eq_true, beq_iff_eq]
  exact ⟨fun ⟨k, hk, r, hr, hp⟩ => ⟨k, r, hk, hr, hp⟩, fun ⟨k, r, hk, hr, hp⟩ => ⟨k, hk, r, hr, hp⟩⟩

theorem stackNamed_iff {h : Handed} {x : CompilerId} : stackNamed s h x = true ↔
    ((s.comp x).state = .gathering ∨ (s.comp x).state = .closing ∨ (s.comp x).state = .ready) ∧
      ((∃ k : JamKind, h.halt.jam = some (k, s5Of x)) ∨
        ∃ (k : SetKey) (r : Run), (s.comp x).current = some k ∧ s.getRun k.run = some r ∧ r.policy = .wholeSet) := by
  rw [stackNamed, Bool.and_eq_true, Bool.or_eq_true, Compiler.holdsStack_iff, HaltRecord.jamAt_iff, wholeSetAt_iff]

theorem hasLosses_iff {h : Handed} : hasLosses s h = true ↔ h.path ≠ [] ∨ h.queue ≠ [] ∨ ∃ (x : CompilerId) (k : JamKind),
    h.halt.jam = some (k, s5Of x) ∧
      ((s.comp x).state = .gathering ∨ (s.comp x).state = .closing ∨ (s.comp x).state = .ready) := by
  have hcomp : (∃ (x : CompilerId) (k : JamKind), h.halt.jam = some (k, s5Of x) ∧
      ((s.comp x).state = .gathering ∨ (s.comp x).state = .closing ∨ (s.comp x).state = .ready)) ↔
        (h.halt.jamAt .a && s.compA.holdsStack) = true ∨ (h.halt.jamAt .b && s.compB.holdsStack) = true := by
    simp only [Bool.and_eq_true, Compiler.holdsStack_iff, HaltRecord.jamAt_iff]
    constructor
    · rintro ⟨x, k, hj, hs⟩
      cases x
      · exact .inl ⟨⟨k, hj⟩, hs⟩
      · exact .inr ⟨⟨k, hj⟩, hs⟩
    · rintro (⟨⟨k, hj⟩, hs⟩ | ⟨⟨k, hj⟩, hs⟩)
      · exact ⟨.a, k, hj, hs⟩
      · exact ⟨.b, k, hj, hs⟩
  rw [hcomp, hasLosses, Bool.or_eq_true, Bool.or_eq_true, Bool.or_eq_true, Bool.not_eq_true', Bool.not_eq_true',
    List.isEmpty_eq_false_iff, List.isEmpty_eq_false_iff, or_assoc, or_assoc]

theorem mem_lostSets {h : Handed} {k : SetKey} :
    k ∈ lostSets s h ↔ ∃ x : CompilerId, (s.comp x).current = some k ∧ stackNamed s h x = true := by
  have hside (x : CompilerId) : k ∈ (if stackNamed s h x = true then (s.comp x).current.toList else []) ↔
      (s.comp x).current = some k ∧ stackNamed s h x = true := by
    split <;> simp_all [Option.mem_toList]
  rw [lostSets, List.mem_append]
  refine (or_congr (hside .a) (hside .b)).trans ⟨fun hk => hk.elim (⟨.a, ·⟩) (⟨.b, ·⟩), fun ⟨x, hk⟩ => ?_⟩
  cases x
  · exact .inl hk
  · exact .inr hk

theorem Handed.inPath_iff {h : Handed} {k : SetKey} :
    h.inPath k = true ↔ ∃ r ∈ h.path, r.key = some k ∧ (r.kind = .tentative ∨ r.kind = .confirmed) := by
  simp only [Handed.inPath, List.any_eq_true, Bool.and_eq_true, Bool.or_eq_true, beq_iff_eq, PathRec.of_iff]

theorem Handed.inQueue_iff {h : Handed} {k : SetKey} :
    h.inQueue k = true ↔ ∃ e ∈ h.queue, e.sheet.key = k ∧ e.void = false := by
  simp only [Handed.inQueue, List.any_eq_true, Bool.and_eq_true, Bool.not_eq_true', beq_iff_eq]

section
variable {h : Handed} {lost : List SetKey} {k : SetKey}

theorem affectedCause_of_lost (hk : k ∈ lost) : affectedCause h lost k = some .compilerLoss :=
  if_pos (List.contains_iff_mem.2 hk)

variable (hk : k ∉ lost)
include hk

theorem affectedCause_of_kept : affectedCause h lost k =
    if h.inPath k = true then some .pathLoss else if h.inQueue k = true then some .discarded else none :=
  if_neg fun hc => hk (List.contains_iff_mem.1 hc)

theorem affectedCause_of_path (hp : h.inPath k = true) : affectedCause h lost k = some .pathLoss := by
  rw [affectedCause_of_kept hk, if_pos hp]

variable (hp : ¬ h.inPath k = true)
include hp

theorem affectedCause_of_queue (hq : h.inQueue k = true) : affectedCause h lost k = some .discarded := by
  rw [affectedCause_of_kept hk, if_neg hp, if_pos hq]

theorem affectedCause_of_none (hq : ¬ h.inQueue k = true) : affectedCause h lost k = none := by
  rw [affectedCause_of_kept hk, if_neg hp, if_neg hq]

end

/-! ## A lost stack (R114) -/

/-- The set of a compiler, if any, changes. -/
def modSetOf (k : Option SetKey) (f : SetRec → SetRec) (s : State) : State := k.elim s (fun k => modSet k f s)

theorem modSetOf_modComp (k : Option SetKey) (g : SetRec → SetRec) (x : CompilerId) (f : Compiler → Compiler) (s : State) :
    modSetOf k g (modComp x f s) = modComp x f (modSetOf k g s) := by
  cases k with
  | none => rfl
  | some k => exact modSet_modComp k g x f s

theorem modSetOf_comp (k : Option SetKey) (g : SetRec → SetRec) (s : State) (x : CompilerId) :
    (modSetOf k g s).comp x = s.comp x := by
  cases k with
  | none => rfl
  | some k => exact modSet_comp k g s x

theorem modSetOf_pins (k : Option SetKey) (g : SetRec → SetRec) (s : State) : (modSetOf k g s).pins = s.pins := by
  cases k <;> rfl

/-- What a set becomes whose reservation is given up (R87). -/
def givenUp (z : SetRec) : SetRec :=
  if z.state = .announcing ∨ z.state = .fed then
    { z with assigned := none, state := .diverting, divertPage := some 1, divertCause := some .noCompiler }
  else { z with assigned := none }

/-- A compiler whose stack is lost (R114). -/
def lostStack (mark : Bool) (c : Compiler) : Compiler :=
  { c with
    state := .clearWait, cycleMark := mark, settle := none, close := none, transfer := none, packet := none,
    count := 0, thickness := 0, tags := [], current := none, reserved := none, undeliverable := false, blockedSent := false }

/-- The set records after a compiler's stack is lost (R114). -/
def lostSetRecs (x : CompilerId) (s : State) : State :=
  modSetOf (s.comp x).reserved givenUp (modSetOf (s.comp x).current (fun q => { q with assigned := none }) s)

/-- The compiler's own part of a lost stack, but for its reservation and its state. -/
def unstacked (c : Compiler) : Compiler :=
  { c with settle := none, close := none, transfer := none, packet := none, count := 0, thickness := 0, tags := [],
           current := none, undeliverable := false, blockedSent := false }

theorem giveUp_eq_givenUp (x : CompilerId) (k : SetKey) (s : State) :
    giveUp x k s = modSet k givenUp (modComp x (fun c => { c with reserved := none }) s) := giveUp_eq x k s

/-- The reservation, if any, is given up. -/
def giveUpReserved (x : CompilerId) (k : Option SetKey) (s : State) : State := k.elim s (fun k => giveUp x k s)

theorem giveUpReserved_eq (x : CompilerId) (s : State) {c : State} (h : (c.comp x).reserved = (s.comp x).reserved) :
    giveUpReserved x (s.comp x).reserved c =
      modComp x (fun c => { c with reserved := none }) (modSetOf (s.comp x).reserved givenUp c) := by
  cases hr : (s.comp x).reserved with
  | none =>
    have hsame : { c.comp x with reserved := none } = c.comp x := by rw [← h.trans hr]
    exact (modComp_of_eq (f := fun c => { c with reserved := none }) hsame).symm
  | some k => exact (giveUp_eq_givenUp x k c).trans (modSet_modComp k givenUp x _ c)

theorem stackLost_unfold (x : CompilerId) (s : State) : stackLost x s =
    releaseTest (paceTest (modComp x (fun c => { c with state := .clearWait, cycleMark := s.pins.front })
      (giveUpReserved x (s.comp x).reserved
        (modSetOf (s.comp x).current (fun q => { q with assigned := none }) (modComp x unstacked s))))) := by
  simp only [stackLost, giveUpReserved, modSetOf]
  cases (s.comp x).current <;> cases (s.comp x).reserved <;>
    simp only [Option.elim_none, Option.elim_some, giveUp, divertSet, modSet_pins, modComp_pins] <;> rfl

theorem stackLost_eq (x : CompilerId) (s : State) :
    stackLost x s = releaseTest (paceTest (modComp x (lostStack s.pins.front) (lostSetRecs x s))) := by
  rw [stackLost_unfold, modSetOf_modComp, giveUpReserved_eq x s (by rw [modComp_comp, modSetOf_comp]; rfl), modSetOf_modComp,
    modComp_modComp, modComp_modComp]
  rfl

/-! ## The list (R144 to R150) -/

theorem loseNamed_eq (h : Handed) (s : State) : loseNamed h s =
    (if stackNamed s h .b = true then stackLost .b else id) ((if stackNamed s h .a = true then stackLost .a else id) s) := by
  simp only [loseNamed]
  split <;> split <;> rfl

theorem takeStock_of_losses {h : Handed} (hl : hasLosses s h = true) : takeStock h s = buildList h s := if_pos hl

theorem takeStock_of_none {h : Handed} (hl : hasLosses s h = false) : takeStock h s = s := if_neg (by simp [hl])

theorem recovery_listed (l : Option RecoveryList) (u : State) :
    (paceTest (closeTest .b (closeTest .a { u with recovery := l }))).recovery = l :=
  recovery_of_base (s := { u with recovery := l }) (by simp)

theorem base_takeStock (h : Handed) (s : State) : (takeStock h s).base = { s.base with recovery := (takeStock h s).recovery } := by
  cases hl : hasLosses s h with
  | true => rw [takeStock_of_losses hl, base_buildList]
  | false => rw [takeStock_of_none hl]; rfl

/-! ## The halt (R67) -/

section
variable {cause : HaltCause} {jam : Option (JamKind × Sensor)} {b : NoticeBody}

theorem halt_of_halt (ht : s.tracker.transport = .halt) :
    halt cause jam b s = notify b (modTracker (fun t => { t with causes := t.causes.add cause }) s) := if_pos ht

theorem halt_of_recover (ht : s.tracker.transport = .recover) :
    halt cause jam b s = notify b (stopTransport { cause := cause, jam := jam, time := s.now } s) := by
  simp [halt, ht]

theorem halt_of_other (hh : s.tracker.transport ≠ .halt) (hr : s.tracker.transport ≠ .recover) :
    halt cause jam b s =
      notify b (takeStock { path := s.tracker.path, queue := s.queue, halt := { cause := cause, jam := jam, time := s.now } }
        (stopTransport { cause := cause, jam := jam, time := s.now } s)) := by
  simp [halt, hh, hr]

/-- A halt leaves what it stops as `stopTransport` does; of the base, stock-taking changes the recovery list only. -/
theorem base_halt (hh : s.tracker.transport ≠ .halt) : (halt cause jam b s).base =
    { (stopTransport { cause := cause, jam := jam, time := s.now } s).base with recovery := (halt cause jam b s).recovery } := by
  by_cases hr : s.tracker.transport = .recover
  · rw [halt_of_recover hr, recovery_of_base (base_notify _ _), base_notify]
    rfl
  · rw [halt_of_other hh hr, recovery_of_base (base_notify _ _), base_notify, base_takeStock]

end

theorem path_eq_nil_of_still {t : State} (h : t.tracker.path.map PathRec.still = []) : t.tracker.path = [] :=
  List.map_eq_nil_iff.1 h

/-- Settles O31: the halt by the transport state, then stock-taking part by part. -/
theorem haltEmptiesThePathAndTheQueue : Obligations.HaltEmptiesThePathAndTheQueue := by
  refine ⟨fun cause jam b s => ⟨halt_of_halt, fun hh => ?_⟩, fun h s => ⟨hasLosses_iff, takeStock_of_none, fun hl => ?_⟩,
    fun h x s => stackNamed_iff, fun h lost k => ⟨affectedCause_of_lost, fun hk hp => affectedCause_of_path hk (Handed.inPath_iff.2 hp),
      fun hk hp => ?_⟩, fun k s => ⟨fun ha => if_pos ha, fun ha hb => (if_neg ha).trans (if_pos hb),
      fun ha hb => (if_neg ha).trans (if_neg hb), rfl⟩, fun x s => ?_⟩
  · have hb := base_halt (cause := cause) (jam := jam) (b := b) hh
    have hrec : s.tracker.transport = .recover → (halt cause jam b s).recovery = s.recovery := fun hr => by
      rw [halt_of_recover hr, recovery_of_base (base_notify _ _)]; rfl
    have hstop : ∃ u : State, u = stopTransport { cause := cause, jam := jam, time := s.now } s ∧
        (s.tracker.transport = .recover → halt cause jam b s = notify b u) ∧
        (s.tracker.transport ≠ .recover → halt cause jam b s = notify b (takeStock
          { path := s.tracker.path, queue := s.queue, halt := { cause := cause, jam := jam, time := s.now } } u)) :=
      ⟨_, rfl, halt_of_recover, halt_of_other hh⟩
    generalize halt cause jam b s = t at hb hrec hstop ⊢
    exact ⟨congrArg (fun u => u.tracker.transport) hb, path_eq_nil_of_still (congrArg (fun u => u.tracker.path) hb),
      congrArg State.queue hb, congrArg State.window hb, congrArg State.guard hb, congrArg (fun u => u.tracker.spinup) hb,
      congrArg (fun u => u.tracker.idle) hb, congrArg (fun u => u.tracker.causes) hb,
      congrArg (fun u => u.tracker.haltRecord) hb, congrArg (fun u => u.tracker.readings) hb, (congrArg State.pins hb :),
      (congrArg State.staged hb :), hrec, hstop⟩
  · rw [takeStock_of_losses hl]
    refine ⟨lostSets s h, loseNamed h s, _, _, fun k => mem_lostSets, loseNamed_eq h s, rfl, rfl, rfl, ?_⟩
    exact recovery_listed _ _
  · have hno : ¬ h.inPath k = true := by
      rw [Handed.inPath_iff]
      rintro ⟨r, hr, hkey, hkind⟩
      obtain ⟨ht, hc⟩ := hp r hr hkey
      exact hkind.elim ht hc
    refine ⟨fun hq => affectedCause_of_queue hk hno (Handed.inQueue_iff.2 hq), fun hq => affectedCause_of_none hk hno ?_⟩
    rw [Handed.inQueue_iff]
    rintro ⟨e, he, hkey, hv⟩
    simp [hq e he hkey] at hv
  · refine ⟨modSetOf (s.comp x).current (fun q => { q with assigned := none }) s, lostSetRecs x s, fun k hk => ?_, fun hn => ?_,
      fun k hk => ?_, fun hn => ?_, stackLost_eq x s⟩
    · rw [hk]; rfl
    · rw [hn]; rfl
    · rw [lostSetRecs, hk]; rfl
    · rw [lostSetRecs, hn]; rfl

end Sys2Proof.Machine
end

section
/-! PROOFS. The end of the profile load (R176): what is staged, the latch, the blocks and the power-on check (R63). -/

namespace Sys2Proof.Machine

variable {s t u : State}

/-! ## Staging every group (R175, R176) -/

/-- The state after the five groups are staged and the mask is in force. -/
def stagedAll (s : State) : State :=
  { s with
    loading := false,
    staged :=
      { path := loadedValues s.image .path, media := loadedValues s.image .media, compile := loadedValues s.image .compile,
        delivery := loadedValues s.image .delivery, mask := maskOfFields (loadedValues s.image .link) },
    latched := { s.latched with mask := maskOfFields (loadedValues s.image .link) },
    profileMarks := allGroups.map (fun g => profileCause s.image g != .none) }

theorem latchMask_loadGroups (hm : s.profileMarks.length = 5) :
    latchMask (loadGroups allGroups { s with loading := false }) = stagedAll s := by
  obtain ⟨a, b, c, d, e, hmarks⟩ : ∃ a b c d e, s.profileMarks = [a, b, c, d, e] := by
    match s.profileMarks, hm with
    | [a, b, c, d, e], _ => exact ⟨a, b, c, d, e, rfl⟩
  simp only [latchMask, loadGroups, allGroups, List.foldl_cons, List.foldl_nil, stageLoaded, Staged.withValues, Group.code, hmarks,
    stagedAll, List.map_cons, List.map_nil, List.set_cons_zero, List.set_cons_succ, Nat.reduceSub]

theorem mem_allGroups (g : Group) : g ∈ allGroups := by cases g <;> decide

theorem faultCauses_allGroups (s : State) : faultCauses allGroups s = allGroups.map (profileCause s.image) :=
  List.map_congr_left fun g _ => if_pos (List.contains_iff_mem.2 (mem_allGroups g))

theorem anyFault_iff : (faultCauses allGroups s).any (fun c => c != .none) = true ↔ ∃ g : Group, profileCause s.image g ≠ .none := by
  rw [faultCauses_allGroups, List.any_map, List.any_eq_true]
  simp only [Function.comp_apply, bne_iff_ne]
  exact ⟨fun ⟨g, _, hg⟩ => ⟨g, hg⟩, fun ⟨g, hg⟩ => ⟨g, mem_allGroups g, hg⟩⟩

theorem profileFaultNotice_of_good (h : ∀ g : Group, profileCause s.image g = .none) : profileFaultNotice allGroups s = s :=
  if_neg fun hf => (anyFault_iff.1 hf).elim fun g hg => hg (h g)

theorem profileFaultNotice_of_bad (h : ∃ g : Group, profileCause s.image g ≠ .none) : profileFaultNotice allGroups s =
    notify (.profileFault (allGroups.map (profileCause s.image))) s := by
  rw [← faultCauses_allGroups]
  exact if_pos (anyFault_iff.2 h)

theorem latchOnly_profileFaultNotice (gs : List Group) (s : State) : LatchOnly s (profileFaultNotice gs s) := by
  unfold profileFaultNotice
  split
  · exact latchOnly_notify _ _
  · rfl

theorem profileFaultNotice_staged (gs : List Group) (s : State) : (profileFaultNotice gs s).staged = s.staged := by
  unfold profileFaultNotice
  split
  · exact notify_staged _ _
  · rfl

theorem profileFaultNotice_latched (gs : List Group) (s : State) : (profileFaultNotice gs s).latched = s.latched := by
  unfold profileFaultNotice
  split
  · exact notify_latched _ _
  · rfl

theorem endLoad_eq (hm : s.profileMarks.length = 5) :
    endLoad s = paceTest (powerOnCheck (startBlocks (latchPathMedia (profileFaultNotice allGroups (stagedAll s))))) := by
  rw [endLoad, latchMask_loadGroups hm]

/-! ## What the PATH and MEDIA latch leaves staged and in force (R173, R174) -/

/-- Of the staged and latched values, `t` differs from `s` at most in PATH. -/
def PathOnly (s t : State) : Prop :=
  t.staged = { s.staged with path := t.staged.path } ∧ t.latched = { s.latched with path := t.latched.path }

theorem PathOnly.trans (h : PathOnly s t) (h' : PathOnly t u) : PathOnly s u := by
  obtain ⟨hs, hl⟩ := h
  obtain ⟨hs', hl'⟩ := h'
  exact ⟨by rw [hs', hs], by rw [hl', hl]⟩

theorem pathOnly_raise (i v against : Nat) (s : State) : PathOnly s (raise i v against s) := by
  constructor
  · rw [raise, notify_staged]
  · rw [raise, notify_latched]

theorem pathOnly_fixes (s : State) : PathOnly s (fixTJam (fixZ4 (fixZ2 s))) := by
  have h2 (u : State) : PathOnly u (fixZ2 u) := by
    unfold fixZ2; split
    · exact pathOnly_raise _ _ _ _
    · exact ⟨rfl, rfl⟩
  have h4 (u : State) : PathOnly u (fixZ4 u) := by
    unfold fixZ4; split
    · exact pathOnly_raise _ _ _ _
    · exact ⟨rfl, rfl⟩
  have hj (u : State) : PathOnly u (fixTJam u) := by
    unfold fixTJam; split
    · exact pathOnly_raise _ _ _ _
    · exact ⟨rfl, rfl⟩
  exact ((h2 s).trans (h4 _)).trans (hj _)

theorem pathOnly_latchPathMedia (s : State) :
    PathOnly { s with latched := { s.latched with media := s.staged.media } } (latchPathMedia s) := by
  obtain ⟨hs, hl⟩ := pathOnly_fixes { s with latched := { s.latched with path := s.staged.path, media := s.staged.media } }
  simp only [latchPathMedia, PathOnly, purgeCapacityTest_staged, purgeCapacityTest_latched, modTracker_staged, modTracker_latched]
  exact ⟨hs, hl⟩

/-! ## Halts with nothing to lose (R63, R67, R143) -/

/-- The path and the queue are empty and no compiler holds a stack: a halt has no losses. -/
def NothingToLose (s : State) : Prop :=
  s.tracker.path = [] ∧ s.queue = [] ∧ s.compA.holdsStack = false ∧ s.compB.holdsStack = false

/-- `t` differs from `s` at most in what a halt without losses writes. -/
def HaltOnly (s t : State) : Prop :=
  t = { s with
    link := t.link, router := t.router, window := t.window, guard := t.guard,
    tracker := { s.tracker with
      transport := t.tracker.transport, causes := t.tracker.causes, haltRecord := t.tracker.haltRecord,
      spinup := t.tracker.spinup, idle := t.tracker.idle } }

theorem HaltOnly.trans (h : HaltOnly s t) (h' : HaltOnly t u) : HaltOnly s u := by
  unfold HaltOnly at h h'
  calc u = { t with
      link := u.link, router := u.router, window := u.window, guard := u.guard,
      tracker := { t.tracker with
        transport := u.tracker.transport, causes := u.tracker.causes, haltRecord := u.tracker.haltRecord,
        spinup := u.tracker.spinup, idle := u.tracker.idle } } := h'
    _ = _ := by rw [h]

theorem HaltOnly.pins (h : HaltOnly s t) : t.pins = s.pins := congrArg (fun u => u.pins) h
theorem HaltOnly.readings (h : HaltOnly s t) : t.tracker.readings = s.tracker.readings := congrArg (fun u => u.tracker.readings) h

theorem NothingToLose.of_haltOnly (hs : NothingToLose s) (h : HaltOnly s t) : NothingToLose t := by
  obtain ⟨hp, hq, ha, hb⟩ := hs
  refine ⟨?_, ?_, ?_, ?_⟩
  · exact (congrArg (fun u => u.tracker.path) h).trans hp
  · exact (congrArg (fun u => u.queue) h).trans hq
  · rw [show t.compA = s.compA from congrArg (fun u => u.compA) h, ha]
  · rw [show t.compB = s.compB from congrArg (fun u => u.compB) h, hb]

theorem takeStock_of_nothing (hs : NothingToLose s) (h : HaltRecord) (r : HaltRecord) :
    takeStock { path := s.tracker.path, queue := s.queue, halt := h } (stopTransport r s) = stopTransport r s := by
  obtain ⟨hp, hq, ha, hb⟩ := hs
  refine takeStock_of_none ?_
  simp [hasLosses, stopTransport, hp, hq, ha, hb]

theorem halt_of_nothing (hs : NothingToLose s) (cause : HaltCause) (jam : Option (JamKind × Sensor)) (b : NoticeBody) :
    HaltOnly s (halt cause jam b s) ∧ (halt cause jam b s).tracker.transport = .halt ∧
      (halt cause jam b s).tracker.causes = s.tracker.causes.add cause := by
  have hstop (r : HaltRecord) (hc : r.cause = cause) :
      HaltOnly s (notify b (stopTransport r s)) ∧ (notify b (stopTransport r s)).tracker.transport = .halt ∧
        (notify b (stopTransport r s)).tracker.causes = s.tracker.causes.add cause := by
    obtain ⟨hp, hq, _, _⟩ := hs
    rw [notify_eq, ← hc]
    refine ⟨?_, rfl, rfl⟩
    simp only [HaltOnly, stopTransport, ← hp, ← hq]
  by_cases hh : s.tracker.transport = .halt
  · rw [halt_of_halt hh, notify_eq]
    exact ⟨rfl, hh, rfl⟩
  by_cases hr : s.tracker.transport = .recover
  · rw [halt_of_recover hr]
    exact hstop _ rfl
  · rw [halt_of_other hh hr, takeStock_of_nothing hs]
    exact hstop _ rfl

/-! ## The power-on check (R63) -/

/-- A cause of the power-on check. -/
def haltIf (p : Bool) (cause : HaltCause) (jam : Option (JamKind × Sensor)) (b : NoticeBody) (s : State) : State :=
  if p then halt cause jam b s else s

theorem haltIf_of_nothing (hs : NothingToLose s) (p : Bool) (cause : HaltCause) (jam : Option (JamKind × Sensor)) (b : NoticeBody) :
    HaltOnly s (haltIf p cause jam b s) ∧
      (haltIf p cause jam b s).tracker.transport = (if p then .halt else s.tracker.transport) ∧
      (haltIf p cause jam b s).tracker.causes = (if p then s.tracker.causes.add cause else s.tracker.causes) := by
  cases p with
  | true => exact halt_of_nothing hs cause jam b
  | false => exact ⟨rfl, rfl, rfl⟩

/-- The first covered sensor, any sensor when there is none. -/
def firstCoveredAt (s : State) : Sensor := (allSensors.find? s.tracker.readings.get).getD .s0

/-- The two covers' part of the power-on check. -/
def coversChecked (s : State) : State :=
  haltIf (haltIf s.pins.front .coverFront none (.cover .front true) s).pins.top .coverTop none (.cover .top true)
    (haltIf s.pins.front .coverFront none (.cover .front true) s)

theorem powerOnCheck_eq (s : State) : powerOnCheck s =
    haltIf (allSensors.any (coversChecked s).tracker.readings.get) .jam (some (.unexpected, firstCoveredAt (coversChecked s)))
      (.jam .unexpected (firstCoveredAt (coversChecked s)) 0 none none (coversChecked s).now) (coversChecked s) := by
  show (match allSensors.find? (coversChecked s).tracker.readings.get with
    | none => coversChecked s
    | some x => jamAtSensor .unexpected x (coversChecked s)) = _
  rw [← List.isSome_find?, firstCoveredAt]
  cases allSensors.find? (coversChecked s).tracker.readings.get <;> rfl

/-- The power-on check of a state with nothing to lose: each open cover and the covered sensors give their causes. -/
theorem powerOnCheck_of_nothing (hs : NothingToLose s) (ht : s.tracker.transport = .off) (hc : s.tracker.causes = {}) :
    HaltOnly s (powerOnCheck s) ∧
      (powerOnCheck s).tracker.transport =
        (if s.pins.front || s.pins.top || allSensors.any s.tracker.readings.get then .halt else .off) ∧
      (powerOnCheck s).tracker.causes =
        { jam := allSensors.any s.tracker.readings.get, coverFront := s.pins.front, coverTop := s.pins.top } := by
  obtain ⟨hF, htF, hcF⟩ := haltIf_of_nothing hs s.pins.front .coverFront none (.cover .front true)
  obtain ⟨hT, htT, hcT⟩ := haltIf_of_nothing (hs.of_haltOnly hF) s.pins.top .coverTop none (.cover .top true)
  have hcovers : haltIf s.pins.top .coverTop none (.cover .top true)
      (haltIf s.pins.front .coverFront none (.cover .front true) s) = coversChecked s := by
    rw [coversChecked, hF.pins]
  rw [hcovers] at hT htT hcT
  have hboth := hF.trans hT
  obtain ⟨hJ, htJ, hcJ⟩ := haltIf_of_nothing (hs.of_haltOnly hboth) (allSensors.any (coversChecked s).tracker.readings.get) .jam
    (some (.unexpected, firstCoveredAt (coversChecked s)))
    (.jam .unexpected (firstCoveredAt (coversChecked s)) 0 none none (coversChecked s).now)
  rw [← powerOnCheck_eq] at hJ htJ hcJ
  refine ⟨hboth.trans hJ, ?_, ?_⟩
  · rw [htJ, htT, htF, ht, hboth.readings]
    cases s.pins.front <;> cases s.pins.top <;> cases allSensors.any s.tracker.readings.get <;> rfl
  · rw [hcJ, hcT, hcF, hc, hboth.readings]
    cases s.pins.front <;> cases s.pins.top <;> cases allSensors.any s.tracker.readings.get <;> rfl

/-! ## The blocks (R98, R120, R134, R141, R72) -/

theorem holdsStack_start (latched : List Nat) (paper cart : Bool) : (Compiler.start latched paper cart).holdsStack = false := by
  cases paper <;> rfl

theorem nothingToLose_startBlocks (hp : s.tracker.path = []) (hq : s.queue = []) : NothingToLose (startBlocks s) :=
  ⟨hp, hq, holdsStack_start _ _ _, holdsStack_start _ _ _⟩

/-- What the end of the load leaves, from the latched state on. -/
theorem endLoad_frame (hm : s.profileMarks.length = 5) (hl : LoadLaw s) : ∃ m : State,
    m = latchPathMedia (profileFaultNotice allGroups (stagedAll s)) ∧ LatchOnly (stagedAll s) m ∧
    HaltOnly (startBlocks m) (endLoad s) ∧
    (endLoad s).tracker.transport = (if s.pins.front || s.pins.top || allSensors.any s.pins.sensors.get then .halt else .off) ∧
    (endLoad s).tracker.causes =
      { jam := allSensors.any s.pins.sensors.get, coverFront := s.pins.front, coverTop := s.pins.top } := by
  obtain ⟨ht, hc, -, -, hp, hq, -⟩ := hl
  rw [endLoad_eq hm]
  have hm := (latchOnly_profileFaultNotice allGroups (stagedAll s)).trans (latchOnly_latchPathMedia _)
  refine ⟨_, rfl, hm, ?_⟩
  generalize latchPathMedia (profileFaultNotice allGroups (stagedAll s)) = m at hm ⊢
  have hpins : m.pins = s.pins := congrArg (fun u => u.pins) hm
  have hmp : m.tracker.path = [] := (congrArg (fun u => u.tracker.path) hm).trans hp
  have hmq : m.queue = [] := (congrArg (fun u => u.queue) hm).trans hq
  have hmt : m.tracker.transport = .off := (congrArg (fun u => u.tracker.transport) hm).trans ht
  have hmc : m.tracker.causes = {} := (congrArg (fun u => u.tracker.causes) hm).trans hc
  obtain ⟨hframe, htransport, hcauses⟩ := powerOnCheck_of_nothing (nothingToLose_startBlocks hmp hmq) hmt hmc
  have hpace : HaltOnly (powerOnCheck (startBlocks m)) (paceTest (powerOnCheck (startBlocks m))) := by
    rw [paceTest_eq]; rfl
  rw [paceTest_tracker, htransport, hcauses]
  exact ⟨hframe.trans hpace, by rw [← hpins]; rfl, by rw [← hpins]; rfl⟩

/-- Settles O8: the frame of the load's end gives every block, the fixes the PATH values, and the same chain the written-out form. -/
theorem loadEndBringsTheBlocksUp : Obligations.LoadEndBringsTheBlocksUp := by
  refine ⟨fun s hload hlaw hmarks => ⟨endLoad s, exec_profileLoadEnd_of_loading hload, ?_⟩,
    fun s hload hmarks => ⟨stagedAll s, profileFaultNotice allGroups (stagedAll s), rfl, fun h => profileFaultNotice_of_good h,
      fun h => profileFaultNotice_of_bad h, by rw [exec_profileLoadEnd_of_loading hload, endLoad_eq hmarks]⟩,
    fun s => exec_profileLoadEnd_of_running⟩
  obtain ⟨m, hm, hlatch, hframe, htransport, hcauses⟩ := endLoad_frame hmarks hlaw
  have hvalues := pathValues_latchPathMedia (profileFaultNotice allGroups (stagedAll s))
  obtain ⟨hstaged, hlatched⟩ := pathOnly_latchPathMedia (profileFaultNotice allGroups (stagedAll s))
  rw [← hm, profileFaultNotice_staged] at hvalues
  rw [← hm, profileFaultNotice_staged] at hstaged
  rw [← hm, profileFaultNotice_staged, profileFaultNotice_latched] at hlatched
  have hpins : m.pins = s.pins := congrArg (fun u => u.pins) hlatch
  have ts : (endLoad s).staged = m.staged := congrArg (fun u => u.staged) hframe
  have tl : (endLoad s).latched = { m.latched with delivery := m.staged.delivery } := congrArg (fun u => u.latched) hframe
  have hmask : m.latched.mask = m.staged.mask := by rw [hlatched, hstaged]; rfl
  have hmedia : m.latched.media = m.staged.media := by rw [hlatched, hstaged]
  have hpath : m.latched.path = m.staged.path := by rw [hvalues.latched, hvalues.staged]
  refine ⟨?_, ?_, ?_, ?_, ?_, ?_, ?_, ?_, ?_, ?_, ?_, ?_, ?_, ?_, ?_, ?_, hcauses, htransport, fun a ha => ?_⟩
  · exact (congrArg (fun u => u.loading) hframe).trans (congrArg (fun u => u.loading) hlatch)
  · exact (congrArg (fun u => u.profileMarks) hframe).trans (congrArg (fun u => u.profileMarks) hlatch)
  · rw [ts, hstaged]; rfl
  · rw [ts, hstaged]; rfl
  · rw [ts, hstaged]; rfl
  · rw [ts, hstaged]; rfl
  · rw [tl, ts]; exact hmedia
  · rw [tl, ts]
  · rw [tl, ts]; exact hmask
  · rw [tl, ts]; exact hpath
  · rw [ts, ← hpins]; exact congrArg (fun u => u.compA) hframe
  · rw [ts, ← hpins]; exact congrArg (fun u => u.compB) hframe
  · rw [← hpins]; exact congrArg (fun u => u.shuttle) hframe
  · rw [← hpins]; exact congrArg (fun u => u.bins) hframe
  · rw [← hpins]; exact congrArg (fun u => u.shelf) hframe
  · rw [← hpins]; exact congrArg (fun u => u.tracker.readings) hframe
  · have hlen : (loadedValues s.image .path).length = 25 := (inRanges_loadedValues s.image .path).1
    have hat (i : Nat) : (endLoad s).path i = (fixedPath (loadedValues s.image .path)).getD i 0 := by
      rw [State.path, tl]
      exact hvalues.path i
    obtain ⟨hother, h1, h4, h15⟩ := getD_fixedPath hlen
    simp only [hat, ha]
    exact ⟨hother, h1, h4, h15⟩

end Sys2Proof.Machine
end

section
/-! PROOFS. The recovery list while it is present (R142): what each command does to it. -/

namespace Sys2Proof.Machine

variable {s t u : State}

/-- The recovery list stands or becomes absent. -/
def ListKept (s t : State) : Prop := t.recovery = s.recovery ∨ t.recovery = none

theorem ListKept.same (h : t.recovery = s.recovery) : ListKept s t := .inl h
theorem ListKept.trans (h : ListKept s t) (h' : ListKept t u) : ListKept s u :=
  h'.elim (fun e => h.imp e.trans e.trans) .inr

/-! ## The path and the queue -/

theorem recovery_of_latchOnly (h : LatchOnly s t) : t.recovery = s.recovery := congrArg (fun u => u.recovery) h

@[simp] theorem recovery_notify (b : NoticeBody) (s : State) : (notify b s).recovery = s.recovery :=
  recovery_of_base (base_notify b s)

theorem recovery_idleTest (s : State) : (idleTest s).recovery = s.recovery := by rw [idleTest_eq]

theorem recovery_startWindow (s : State) : (startWindow s).recovery = s.recovery := by rw [startWindow_eq]

theorem recovery_removeFrom (i : Nat) (s : State) : (removeFrom i s).recovery = s.recovery := by
  rw [removeFrom_eq, idleTest_eq]
  exact (recovery_of_base (base_rollback (s.queue.drop i) (cutAt i s))).trans rfl

theorem recovery_startSpinup (s : State) : (startSpinup s).recovery = s.recovery :=
  congrArg (fun u => u.recovery) (startSpinup_frame rfl)

theorem recovery_acceptAnnounce (tag : Nat) (sh : Sheet) (rep : Bool) (s : State) :
    (acceptAnnounce tag sh rep s).recovery = s.recovery := by
  have hset := recovery_of_base (base_announceSet sh s)
  simp only [acceptAnnounce]
  generalize announceSet sh s = u at hset ⊢
  rw [← hset]
  repeat' split
  · exact recovery_startWindow _
  · rfl
  · exact recovery_startSpinup _
  · rfl
  · rfl
  · rfl

theorem recovery_abortRecord (k : SetKey) (s : State) : (abortRecord k s).recovery = s.recovery := by
  rw [abortRecord, recovery_of_base (base_closeTestOf _ _), recovery_of_base (base_drainTest _ _),
    recovery_of_base (base_removalTest _ _)]
  rfl

theorem recovery_abortFold (ks : List SetKey) (s : State) :
    (ks.foldl (fun s k => abortRecord k s) s).recovery = s.recovery := by
  induction ks generalizing s with
  | nil => rfl
  | cons k ks ih => exact (ih _).trans (recovery_abortRecord k s)

/-! ## The owners of the requests -/

theorem recovery_ownOpenRun (p : List Byte) (s : State) : (ownOpenRun p s).1.recovery = s.recovery := by
  unfold ownOpenRun
  simp only [openClaim]
  repeat' split
  · rfl
  · rfl
  · rfl
  · exact recovery_of_base (by simp)

theorem recovery_ownAbortRun (p : List Byte) (s : State) : (ownAbortRun p s).1.recovery = s.recovery := by
  unfold ownAbortRun
  repeat' split
  · rfl
  · rfl
  · exact (recovery_of_base (base_finishChecks _ _)).trans (recovery_abortFold _ _)
  · rfl

theorem recovery_abortSetNow (k : SetKey) (s : State) : (abortSetNow k s).1.recovery = s.recovery := by
  unfold abortSetNow
  split
  · exact recovery_of_base (base_countFinished _ _ _)
  · exact recovery_abortRecord k s

theorem recovery_ownAbortSet (p : List Byte) (s : State) : (ownAbortSet p s).1.recovery = s.recovery := by
  unfold ownAbortSet
  dsimp only
  repeat' split
  · rfl
  · rfl
  · rfl
  · rfl
  · rfl
  · exact recovery_abortSetNow _ s

theorem recovery_ownAnnounce (p : List Byte) (s : State) : (ownAnnounce p s).1.recovery = s.recovery := by
  unfold ownAnnounce
  repeat' split
  · rfl
  · rfl
  · exact recovery_acceptAnnounce _ _ _ s

theorem recovery_ownWithdraw (p : List Byte) (s : State) : (ownWithdraw p s).1.recovery = s.recovery := by
  unfold ownWithdraw
  dsimp only
  repeat' split
  · rfl
  · rfl
  · rfl
  · exact recovery_removeFrom _ s

/-- Resume in RECOVER makes the list absent (R153). -/
theorem listKept_ownResume (p : List Byte) (s : State) : ListKept s (ownResume p s).1 := by
  unfold ownResume
  split
  · exact .inr rfl
  · exact .inl rfl
  · exact .inl rfl
  · exact .inl rfl
  · exact .inl rfl

theorem recovery_ownRecoveryQuery (p : List Byte) (s : State) : (ownRecoveryQuery p s).1.recovery = s.recovery := by
  unfold ownRecoveryQuery
  dsimp only
  repeat' split
  · rfl
  · rfl
  · rfl

theorem recovery_ownReadTable (p : List Byte) (s : State) : (ownReadTable p s).1.recovery = s.recovery := by
  unfold ownReadTable
  dsimp only
  repeat' split
  · rfl
  · rfl
  · rfl

theorem recovery_latchStaged (g : Group) (s : State) : (latchStaged g s).recovery = s.recovery := by
  cases g with
  | delivery =>
    unfold latchStaged
    dsimp only
    split
    · exact recovery_of_base (base_deliveryLatch s)
    · rfl
  | link => rfl
  | path => rfl
  | media => rfl
  | compile => rfl

theorem recovery_ownSetParameter (p : List Byte) (s : State) : (ownSetParameter p s).1.recovery = s.recovery := by
  unfold ownSetParameter
  dsimp only
  split
  · rfl
  · split
    · rfl
    · exact recovery_latchStaged _ _

theorem recovery_ownGetParameter (p : List Byte) (s : State) : (ownGetParameter p s).1.recovery = s.recovery := by
  unfold ownGetParameter
  split <;> rfl

theorem recovery_ownNoticeMask (p : List Byte) (s : State) : (ownNoticeMask p s).1.recovery = s.recovery := by
  unfold ownNoticeMask
  dsimp only
  split <;> rfl

theorem recovery_ownBinService (p : List Byte) (s : State) : (ownBinService p s).1.recovery = s.recovery := by
  unfold ownBinService
  dsimp only
  repeat' split
  · rfl
  · rfl
  · exact recovery_of_base (base_serveBins _ _ _)

theorem base_compilerOut (x : CompilerId) (s : State) : (compilerOut x s).base = s.base := by
  unfold compilerOut
  split <;> simp

theorem base_compilerIn (x : CompilerId) (s : State) : (compilerIn x s).base = s.base := by
  simp only [compilerIn]
  repeat' split
  all_goals simp

theorem recovery_ownCompilerService (p : List Byte) (s : State) : (ownCompilerService p s).1.recovery = s.recovery := by
  unfold ownCompilerService
  split
  · rename_i x a _ _
    cases a with
    | out => exact recovery_of_base (base_compilerOut x s)
    | in_ => exact recovery_of_base (base_compilerIn x s)
  · rfl

theorem recovery_restartPathNow (s : State) : (restartPathNow s).recovery = s.recovery := by
  obtain ⟨_, _, hload⟩ := loadGroups_keeps [.path, .media] s
  exact ((recovery_of_latchOnly (latchOnly_latchPathMedia _)).trans
    (recovery_of_latchOnly (latchOnly_profileFaultNotice _ _))).trans hload

theorem recovery_ownRestart (p : List Byte) (s : State) : (ownRestart p s).1.recovery = s.recovery := by
  unfold ownRestart restartFull restartPath
  repeat' split
  · rfl
  · rfl
  · exact recovery_restartPathNow s
  · rfl

/-! ## Request frames (R160 to R162) -/

theorem listKept_takeComplete (kind seq : Byte) {f : State → State × Answer} (hf : ∀ u, ListKept u (f u).1) (s : State) :
    ListKept s (takeComplete kind seq f s) := by
  simp only [takeComplete]
  repeat' split
  · exact .inl rfl
  · exact .inl (recovery_notify _ _)
  · exact .inl rfl
  · exact hf _

theorem listKept_takeRequest (kind len : Nat) {own : Owner} (hown : ∀ p u, ListKept u (own p u).1) (seq : Byte) (p : List Byte)
    (s : State) : ListKept s (takeRequest kind len own seq p s) := by
  refine listKept_takeComplete _ _ (fun u => ?_) s
  unfold checkLength
  split
  · exact hown p u
  · exact .inl rfl

theorem listKept_takeFrame (kind seq : Byte) (p : List Byte) (s : State) : ListKept s (takeFrame kind seq p s) := by
  unfold takeFrame
  split
  · exact listKept_takeRequest _ _ (fun p u => .inl (recovery_ownOpenRun p u)) _ _ s
  · exact listKept_takeRequest _ _ (fun p u => .inl (recovery_ownAbortRun p u)) _ _ s
  · exact listKept_takeRequest _ _ (fun p u => .inl (recovery_ownAbortSet p u)) _ _ s
  · exact listKept_takeRequest _ _ (fun p u => .inl (recovery_ownAnnounce p u)) _ _ s
  · exact listKept_takeRequest _ _ (fun p u => .inl (recovery_ownWithdraw p u)) _ _ s
  · exact listKept_takeRequest _ _ listKept_ownResume _ _ s
  · exact listKept_takeRequest _ _ (fun p u => .inl (recovery_ownRecoveryQuery p u)) _ _ s
  · exact listKept_takeRequest _ _ (fun p u => .inl (recovery_ownReadTable p u)) _ _ s
  · exact listKept_takeRequest _ _ (fun _ _ => .inl rfl) _ _ s
  · exact listKept_takeRequest _ _ (fun p u => .inl (recovery_ownSetParameter p u)) _ _ s
  · exact listKept_takeRequest _ _ (fun p u => .inl (recovery_ownGetParameter p u)) _ _ s
  · exact listKept_takeRequest _ _ (fun p u => .inl (recovery_ownBinService p u)) _ _ s
  · exact listKept_takeRequest _ _ (fun p u => .inl (recovery_ownCompilerService p u)) _ _ s
  · exact listKept_takeRequest _ _ (fun p u => .inl (recovery_ownNoticeMask p u)) _ _ s
  · exact listKept_takeRequest _ _ (fun p u => .inl (recovery_ownRestart p u)) _ _ s
  · exact listKept_takeComplete _ _ (fun _ => .inl rfl) s

theorem recovery_discardFrame (c : LinkCause) (len : Nat) (s : State) : (discardFrame c len s).recovery = s.recovery :=
  recovery_notify _ _

theorem listKept_byteTaken (b : Byte) (s : State) : ∃ t, exec (.byteTaken b) s = .next t ∧ ListKept s t := by
  refine ⟨_, rfl, ?_⟩
  split
  · split <;> exact .inl rfl
  · unfold takeLength
    split
    · exact .inl rfl
    · exact .inl (recovery_discardFrame _ _ _)
  · exact .inl rfl
  · unfold takeCheck
    dsimp only
    repeat' split
    · exact .inl rfl
    · exact listKept_takeFrame _ _ _ s
    · exact .inl (recovery_discardFrame _ _ _)

/-- A power-on makes the list absent (R169). -/
theorem listKept_frameSent (s : State) : ListKept s (frameSent s) := by
  unfold frameSent
  repeat' split
  · exact .inr rfl
  · exact .inl rfl
  · exact .inl rfl

/-! ## Leaving HALT (R68, R70, R151) -/

theorem recovery_jamTest (s : State) : (jamTest s).recovery = s.recovery := by
  unfold jamTest
  split <;> rfl

/-- The list is kept for RECOVER, or it has no entries and becomes absent (R151). -/
theorem listKept_leaveTest (s : State) : ListKept s (leaveTest s) := by
  unfold leaveTest leaveHalt
  split
  · split
    · exact .inl (recovery_notify _ _)
    · exact .inr rfl
  · exact .inl rfl

theorem recovery_emptyTray (s : State) : (emptyTray s).recovery = s.recovery := by
  simp only [emptyTray]
  split
  · rfl
  · exact (recovery_of_base (base_paceTest _)).trans rfl

theorem listKept_closeCover (c : Cover) (s : State) : ListKept s (closeCover c s) := by
  obtain ⟨u, hu⟩ : ∃ u, jamTest (modTracker (fun t => { t with causes := t.causes.closed c })
      (notify (.cover (coverName c) false) s)) = u := ⟨_, rfl⟩
  have hrec : u.recovery = s.recovery := by
    rw [← hu, recovery_jamTest]
    exact recovery_notify _ s
  have hfront : (resumeCompiler .b (resumeCompiler .a u)).recovery = s.recovery :=
    (recovery_of_base (by simp)).trans hrec
  have htop : (emptyTray u).recovery = s.recovery := (recovery_emptyTray u).trans hrec
  unfold closeCover
  dsimp only
  rw [hu]
  cases c with
  | front => exact (ListKept.same hfront).trans (listKept_leaveTest _)
  | top => exact (ListKept.same htop).trans (listKept_leaveTest _)

/-! ## Halts while a list waits (R67, R143) -/

/-- The transport stands where a list waits, with nothing on the path. -/
def AtRest (s : State) : Prop :=
  s.loading = false ∧ (s.tracker.transport = .halt ∨ s.tracker.transport = .recover) ∧ s.tracker.path = []

theorem AtRest.not_run (h : AtRest s) : s.tracker.transport ≠ .run := by
  obtain ⟨_, ht | ht, _⟩ := h <;> rw [ht] <;> decide

/-- In HALT and in RECOVER a halt takes no stock. -/
theorem recovery_halt (ht : s.tracker.transport = .halt ∨ s.tracker.transport = .recover) (cause : HaltCause)
    (jam : Option (JamKind × Sensor)) (b : NoticeBody) : (halt cause jam b s).recovery = s.recovery := by
  rcases ht with ht | ht
  · rw [halt_of_halt ht, recovery_notify]
    rfl
  · rw [halt_of_recover ht, recovery_notify]
    rfl

theorem recovery_openCover (ht : s.tracker.transport = .halt ∨ s.tracker.transport = .recover) (c : Cover) :
    (openCover c s).recovery = s.recovery := by
  have hhalt := recovery_halt ht (coverCause c) none (.cover (coverName c) true)
  cases c with
  | front => exact ((recovery_of_base (base_modComp _ _ _)).trans (recovery_of_base (base_modComp _ _ _))).trans hhalt
  | top => exact hhalt

theorem recovery_leadAtRest (ht : s.tracker.transport = .halt ∨ s.tracker.transport = .recover) (x : Sensor) :
    (leadAtRest x s).recovery = s.recovery := by
  unfold leadAtRest
  split
  · rfl
  · exact recovery_halt ht _ _ _

theorem recovery_leadAtS0 (h : AtRest s) : (leadAtS0 s).recovery = s.recovery := by
  obtain ⟨_, ht, _⟩ := id h
  refine (congrArg State.recovery (if_neg h.not_run)).trans ?_
  exact recovery_leadAtRest (s := setReading .s0 true s) ht .s0

theorem recovery_leadAt (h : AtRest s) (x : Sensor) : (leadAt x s).recovery = s.recovery := by
  obtain ⟨_, ht, _⟩ := id h
  refine (congrArg State.recovery (if_neg h.not_run)).trans ?_
  exact recovery_leadAtRest (s := setReading x true s) ht x

theorem listKept_clearEvent (h : AtRest s) (x : Sensor) (f : Nat → PathRec → State → State) : ListKept s (clearEvent x f s) := by
  obtain ⟨_, ht | ht, _⟩ := h
  · have hclear : clearEvent x f s = leaveTest (jamTest (setReading x false s)) := by
      simp only [clearEvent, setReading_transport, ht, clearInHalt]
    rw [hclear]
    exact (ListKept.same (recovery_jamTest (setReading x false s))).trans (listKept_leaveTest _)
  · rw [clearEvent_of_resting x f (.inr (.inr ht))]
    exact .inl rfl

/-! ## Events at the mechanism port (R176) -/

theorem listKept_takeEvent {pin : Pins → Pins} {event : State → State} (hl : s.loading = false)
    (he : ListKept (modPins pin s) (event (modPins pin s))) : ListKept s (takeEvent pin event s) := by
  rw [takeEvent_run hl]
  exact he

/-- An event of the delivery side does not touch the list. -/
theorem listKept_takeDelivery {pin : Pins → Pins} {event : State → State} (hl : s.loading = false)
    (he : ∀ u, (event u).base = u.base) : ListKept s (takeEvent pin event s) :=
  listKept_takeEvent hl (.inl (recovery_of_base (he _)))

theorem listKept_event {c : Instr} {pin : Pins → Pins} (hc : pinsOf c = some pin) (h : AtRest s) :
    ∃ t, exec c s = .next t ∧ ListKept s t := by
  obtain ⟨hl, ht, hp⟩ := id h
  have hrest (f : Pins → Pins) : AtRest (modPins f s) := h
  cases c
  case s0Lead => exact ⟨_, rfl, listKept_takeEvent hl (.inl (recovery_leadAtS0 (hrest _)))⟩
  case s0Clear => exact ⟨_, rfl, listKept_takeEvent hl (listKept_clearEvent (hrest _) _ _)⟩
  case sensorLead x =>
    refine ⟨_, rfl, listKept_takeEvent hl ?_⟩
    split
    · exact .inl (recovery_leadAtS0 (hrest _))
    · exact .inl (recovery_leadAt (hrest _) x)
  case sensorClear x => exact ⟨_, rfl, listKept_takeEvent hl (listKept_clearEvent (hrest _) _ _)⟩
  case coverOpen c => exact ⟨_, rfl, listKept_takeEvent hl (.inl (recovery_openCover (s := modPins (Pins.setCover c true) s) ht c))⟩
  case coverClose c => exact ⟨_, rfl, listKept_takeEvent hl (listKept_closeCover c _)⟩
  case strokeReport x f => exact ⟨_, rfl, listKept_takeDelivery hl fun u => (deliverySide_strokeReport x f u).2⟩
  case compilerPaperAbsent x =>
    exact ⟨_, rfl, listKept_takeEvent hl
      ((ListKept.same (recovery_of_base (by simp))).trans (listKept_leaveTest _))⟩
  case compilerPaperPresent x => exact ⟨_, rfl, listKept_takeDelivery hl fun u => by simp⟩
  case cartridgeInserted x => exact ⟨_, rfl, listKept_takeDelivery hl fun u => by simp⟩
  case cartridgeRemoved x => exact ⟨_, rfl, listKept_takeDelivery hl fun u => by simp⟩
  case positionReached => exact ⟨_, rfl, listKept_takeDelivery hl fun u => (deliverySide_positionReached u).2⟩
  case shuttleHome v => exact ⟨_, rfl, listKept_takeDelivery hl fun u => by simp⟩
  case towerOpen => exact ⟨_, rfl, listKept_takeDelivery hl fun u => by simp⟩
  case towerClose => exact ⟨_, rfl, listKept_takeDelivery hl fun u => by simp⟩
  case binDoorOpen b => exact ⟨_, rfl, listKept_takeDelivery hl fun u => by simp⟩
  case binDoorClose b => exact ⟨_, rfl, listKept_takeDelivery hl fun u => by simp⟩
  case binPaperPresent b => exact ⟨_, rfl, listKept_takeDelivery hl fun u => by simp⟩
  case binPaperAbsent b => exact ⟨_, rfl, listKept_takeDelivery hl fun u => by simp⟩
  case shelfEmpty => exact ⟨_, rfl, listKept_takeDelivery hl fun u => base_targetEvent _⟩
  case shelfNotEmpty => exact ⟨_, rfl, listKept_takeDelivery hl fun u => rfl⟩
  all_goals simp [pinsOf] at hc

/-! ## The timers -/

theorem ListKept.deliverySide (h : DeliverySide s t) : ListKept s t := .inl (recovery_of_base h.2)

theorem listKept_spinupEnd (s : State) : ∃ t, exec .spinupEnd s = .next t ∧ ListKept s t := by
  refine ⟨_, rfl, ?_⟩
  split
  · exact .inl ((recovery_idleTest _).trans ((recovery_startWindow _).trans (recovery_notify _ _)))
  · exact .inl rfl

theorem listKept_idleExpiry (s : State) : ∃ t, exec .idleExpiry s = .next t ∧ ListKept s t := by
  refine ⟨_, rfl, ?_⟩
  split <;> exact .inl rfl

theorem listKept_entryLate (s : State) : ∃ t, exec .entryLate s = .next t ∧ ListKept s t := by
  refine ⟨_, rfl, ?_⟩
  split
  · split
    · exact .inl (recovery_notify _ _)
    · exact .inl rfl
  · exact .inl rfl

theorem listKept_sheetMissing (s : State) : ∃ t, exec .sheetMissing s = .next t ∧ ListKept s t := by
  refine ⟨_, rfl, ?_⟩
  split
  · split
    · exact .inl ((recovery_notify _ _).trans (recovery_removeFrom 0 s))
    · exact .inl rfl
  · exact .inl rfl

theorem listKept_guardEnd (s : State) : ∃ t, exec .guardEnd s = .next t ∧ ListKept s t := by
  refine ⟨_, rfl, ?_⟩
  split <;> exact .inl rfl

theorem listKept_slipStage (i : Nat) (s : State) : ∃ t, exec (.slipStage i) s = .next t ∧ ListKept s t := by
  refine ⟨_, rfl, ?_⟩
  split
  · exact .inl rfl
  · split
    · exact .inl (recovery_notify _ _)
    · exact .inl rfl

/-- With no record on the path no deadline ends. -/
theorem bind_record_of_empty (hp : s.tracker.path = []) (i : Nat) (f : PathRec → Option (PathRec × Deadline)) :
    (s.tracker.path[i]?).bind f = none := by
  rw [hp]; rfl

theorem listKept_lateJamStage (i : Nat) (hp : s.tracker.path = []) :
    ∃ t, exec (.lateJamStage i) s = .next t ∧ ListKept s t := by
  refine ⟨_, rfl, ?_⟩
  rw [bind_record_of_empty hp]
  exact .inl rfl

theorem listKept_clearDeadlineExpiry (i : Nat) (hp : s.tracker.path = []) :
    ∃ t, exec (.clearDeadlineExpiry i) s = .next t ∧ ListKept s t := by
  refine ⟨_, rfl, ?_⟩
  rw [bind_record_of_empty hp]
  exact .inl rfl

/-! ## The step -/

/-- A list waits only outside the load, in HALT or RECOVER, and there the path is empty (R66). -/
theorem atRest_of_law {l : RecoveryList} (h : DeviceLaw s) (hr : s.recovery = some l) : AtRest s := by
  obtain ⟨hlaw, -, -⟩ := h
  unfold TransportLaw at hlaw
  cases hl : s.loading with
  | true =>
    rw [if_pos hl] at hlaw
    obtain ⟨-, -, -, -, -, -, hnone⟩ := hlaw
    simp [hnone] at hr
  | false =>
    rw [if_neg (by simp [hl])] at hlaw
    obtain ⟨⟨-, -, hpath, -⟩, -, -, hwaits⟩ := hlaw
    have ht := hwaits (by rw [hr]; rfl)
    refine ⟨hl, ht, by_contra fun hp => ?_⟩
    rcases ht with ht | ht <;> rw [hpath hp] at ht <;> cases ht

theorem listKept_exec (c : Instr) (h : AtRest s) : ∃ t, exec c s = .next t ∧ ListKept s t := by
  obtain ⟨hl, -, hp⟩ := id h
  cases hpin : pinsOf c with
  | some pin => exact listKept_event hpin h
  | none =>
    cases hr : requestOf c with
    | some f => exact ⟨_, exec_of_requestOf hr s, listKept_takeFrame _ _ _ s⟩
    | none =>
      cases c
      case resetRelease => exact ⟨_, rfl, .inr rfl⟩
      case profileLoadEnd => exact ⟨_, exec_profileLoadEnd_of_running hl, .inl rfl⟩
      case frameDiscard d =>
        refine ⟨_, rfl, ?_⟩
        split
        · exact .inl (recovery_discardFrame _ _ _)
        · exact .inl rfl
      case interByteTimeout =>
        refine ⟨_, rfl, ?_⟩
        split
        · exact .inl (recovery_discardFrame _ _ _)
        · exact .inl rfl
      case txFrameEnd => exact ⟨_, rfl, listKept_frameSent s⟩
      case restartFullTakeEffect =>
        refine ⟨_, rfl, ?_⟩
        split
        · exact .inr rfl
        · exact .inl rfl
      case spinupEnd => exact listKept_spinupEnd s
      case idleExpiry => exact listKept_idleExpiry s
      case entryLate => exact listKept_entryLate s
      case sheetMissing => exact listKept_sheetMissing s
      case guardEnd => exact listKept_guardEnd s
      case slipStage i => exact listKept_slipStage i s
      case lateJamStage i => exact listKept_lateJamStage i hp
      case clearDeadlineExpiry i => exact listKept_clearDeadlineExpiry i hp
      case releaseSpacingEnd => exact (deliverySide_releaseSpacingEnd s).imp fun _ e => ⟨e.1, .deliverySide e.2⟩
      case settleEnd x => exact (deliverySide_settleEnd x s).imp fun _ e => ⟨e.1, .deliverySide e.2⟩
      case jogEnd x => exact (deliverySide_jogEnd x s).imp fun _ e => ⟨e.1, .deliverySide e.2⟩
      case reportTimerExpiry x => exact (deliverySide_reportTimerExpiry x s).imp fun _ e => ⟨e.1, .deliverySide e.2⟩
      case transferTimerExpiry x => exact (deliverySide_transferTimerExpiry x s).imp fun _ e => ⟨e.1, .deliverySide e.2⟩
      case dropEnd => exact (deliverySide_dropEnd s).imp fun _ e => ⟨e.1, .deliverySide e.2⟩
      case moveTimeout => exact (deliverySide_moveTimeout s).imp fun _ e => ⟨e.1, .deliverySide e.2⟩
      case byteTaken b => exact listKept_byteTaken b s
      all_goals simp [pinsOf, requestOf] at hpin hr

/-- Settles O55: where a list waits no halt takes stock, so every command leaves the list or makes it absent. -/
theorem recoveryListStandsWhilePresent : Obligations.RecoveryListStandsWhilePresent := by
  intro c l s t hlaw hr hexec
  obtain ⟨u, hu, hkept⟩ := listKept_exec c (atRest_of_law hlaw hr)
  cases hu.symm.trans hexec
  exact hkept.imp_left fun h => h.trans hr

end Sys2Proof.Machine
end
